-- ==== Sys2Proof/Word.lean ====
section
/-! DEFINITION. The word types: a bank word or FLAGS value (16 bits), a byte lane (8 bits) and a
command word (24 bits). spec/10_state.md R10, R24; spec/20_memory.md R46; spec/30_encoding.md R60. -/

namespace Sys2Proof

/-- A 16-bit value: a bank word, FLAGS, the `data` field, the value of a `Data` response. -/
abbrev Word := BitVec 16

/-- One byte lane of a bank word. -/
abbrev Byte := BitVec 8

/-- A 24-bit command word `cmd[23:0]` (R60). -/
abbrev CmdWord := BitVec 24

end Sys2Proof
end

