-- ==== Sys2Proof/Syntax.lean ====
section
/-! DEFINITION. The register identifiers and the six commands: the sum type of spec/30_encoding.md R61
with one constructor per row of spec/opcode_table.json. A field a command ignores (R63) is no argument
of its constructor. DESIGN CHOICE, safe: log entry 15. -/

namespace Sys2Proof

/-- The thirteen 16-bit names, in the order of the bank (spec/10_state.md R10). -/
inductive WordReg where
  | ax | cx | dx | bx | sp | bp | si | di | ip | es | cs | ss | ds
  deriving DecidableEq, Repr

/-- The eight byte names, in the order of the document's list (R12, R66). -/
inductive ByteReg where
  | al | cl | dl | bl | ah | ch | dh | bh
  deriving DecidableEq, Repr

/-- A register identifier: what the 5-bit `rid` field can name (R64 to R66). -/
inductive RegId where
  /-- one of the thirteen 16-bit names, codes 0 to 12 (R65) -/
  | word (r : WordReg)
  /-- one of the eight aliases, codes 14 to 21 (R66) -/
  | byte (a : ByteReg)
  /-- the boundary identifier, code 13: can be passed, always fails (R64, C5) -/
  | sentinel
  /-- a value beyond the closed enumeration, codes 22 to 31 (R66); the code is kept -/
  | beyond (code : BitVec 5)
  deriving DecidableEq, Repr

/-- The six commands (R62). -/
inductive Instr where
  /-- the idle step (R111) -/
  | nop
  /-- `reset()` (R110) -/
  | reset
  /-- `set(register, value)` (R120) -/
  | set (r : RegId) (value : Word)
  /-- `get(register)` (R121) -/
  | get (r : RegId)
  /-- `get_flags()` (R140) -/
  | getFlags
  /-- `set_flags(value)` (R141) -/
  | setFlags (value : Word)
  deriving DecidableEq, Repr

end Sys2Proof
end

