-- ==== Sys2Proof/WellFormed.lean ====
section
/-! DEFINITION. The one check a term of the syntax needs: an identifier "beyond the enumeration" carries a
code from 22 to 31 (spec/30_encoding.md R66). Every other term is a command the encoding can express.
DESIGN CHOICE, safe: log entry 15. -/

namespace Sys2Proof

/-- An identifier is well formed when its kept code really lies beyond the enumeration (R66). -/
def RegId.wf : RegId → Bool
  | .word _ => true
  | .byte _ => true
  | .sentinel => true
  | .beyond code => decide (22 ≤ code.toNat)

/-- A command is well formed when its identifier is. -/
def Instr.wf : Instr → Bool
  | .nop => true
  | .reset => true
  | .set r _ => r.wf
  | .get r => r.wf
  | .getFlags => true
  | .setFlags _ => true

end Sys2Proof
end

