-- ==== Sys2Proof/Decode.lean ====
section
/-! DEFINITION. The command word (spec/30_encoding.md R60), the identifier codes (R65, R66), the total decoder
(R76) and the canonical encoder (R62, R63, R74). -/

namespace Sys2Proof

/-- The three fields as one word: `cmd == (op << 21) | (rid << 16) | data` (R60). -/
def CmdWord.make (op : BitVec 3) (rid : BitVec 5) (data : Word) : CmdWord :=
  (op.setWidth 24 <<< 21) ||| (rid.setWidth 24 <<< 16) ||| data.setWidth 24

/-- `op = cmd[23:21]` (R60). -/
def CmdWord.op (cmd : CmdWord) : BitVec 3 := cmd.extractLsb' 21 3

/-- `rid = cmd[20:16]` (R60). -/
def CmdWord.rid (cmd : CmdWord) : BitVec 5 := cmd.extractLsb' 16 5

/-- `data = cmd[15:0]` (R60). -/
def CmdWord.data (cmd : CmdWord) : Word := cmd.extractLsb' 0 16

/-- The identifier a 5-bit code names, as the tables of R65 and R66 list them. -/
def RegId.ofCode (code : BitVec 5) : RegId :=
  match code.toNat with
  | 0 => .word .ax
  | 1 => .word .cx
  | 2 => .word .dx
  | 3 => .word .bx
  | 4 => .word .sp
  | 5 => .word .bp
  | 6 => .word .si
  | 7 => .word .di
  | 8 => .word .ip
  | 9 => .word .es
  | 10 => .word .cs
  | 11 => .word .ss
  | 12 => .word .ds
  | 13 => .sentinel
  | 14 => .byte .al
  | 15 => .byte .cl
  | 16 => .byte .dl
  | 17 => .byte .bl
  | 18 => .byte .ah
  | 19 => .byte .ch
  | 20 => .byte .dh
  | 21 => .byte .bh
  | _ => .beyond code

/-- Why a command word is refused. -/
inductive DecodeError where
  /-- `op` is 6 or 7: a reserved operation code, refused before `rid` is looked at (R70, R164). -/
  | reservedOperation (op : BitVec 3)
  deriving DecidableEq, Repr

/-- The total decoder of R76. `rid` is read by SET and GET only, `data` by SET and SET_FLAGS only (R63). -/
def decode (cmd : CmdWord) : Except DecodeError Instr :=
  match cmd.op.toNat with
  | 0 => .ok .nop
  | 1 => .ok .reset
  | 2 => .ok (.set (RegId.ofCode cmd.rid) cmd.data)
  | 3 => .ok (.get (RegId.ofCode cmd.rid))
  | 4 => .ok .getFlags
  | 5 => .ok (.setFlags cmd.data)
  | _ => .error (.reservedOperation cmd.op)

/-- The instruction read from a word given as a number, bit 0 the least significant bit of the command word;
bits at and above `nbits` are 0. DESIGN CHOICE, safe: log entry 9. -/
def decodeTableWord (nbits w : Nat) : Option Instr :=
  match decode (BitVec.ofNat 24 (w % 2 ^ nbits)) with
  | .ok i => some i
  | .error _ => none

/-- Code of a 16-bit name (R65). -/
def WordReg.code : WordReg → BitVec 5
  | .ax => 0b00000#5
  | .cx => 0b00001#5
  | .dx => 0b00010#5
  | .bx => 0b00011#5
  | .sp => 0b00100#5
  | .bp => 0b00101#5
  | .si => 0b00110#5
  | .di => 0b00111#5
  | .ip => 0b01000#5
  | .es => 0b01001#5
  | .cs => 0b01010#5
  | .ss => 0b01011#5
  | .ds => 0b01100#5

/-- Code of an alias (R66). -/
def ByteReg.code : ByteReg → BitVec 5
  | .al => 0b01110#5
  | .cl => 0b01111#5
  | .dl => 0b10000#5
  | .bl => 0b10001#5
  | .ah => 0b10010#5
  | .ch => 0b10011#5
  | .dh => 0b10100#5
  | .bh => 0b10101#5

/-- Code of an identifier (R65, R66). -/
def RegId.code : RegId → BitVec 5
  | .word r => r.code
  | .byte a => a.code
  | .sentinel => 0b01101#5
  | .beyond code => code

/-- The operation code of a command (R62). -/
def Instr.op : Instr → BitVec 3
  | .nop => 0b000#3
  | .reset => 0b001#3
  | .set _ _ => 0b010#3
  | .get _ => 0b011#3
  | .getFlags => 0b100#3
  | .setFlags _ => 0b101#3

/-- The canonical encoding: every ignored field is zero (R63, R74). -/
def encode (i : Instr) : CmdWord :=
  match i with
  | .nop => CmdWord.make i.op 0#5 0#16
  | .reset => CmdWord.make i.op 0#5 0#16
  | .set r value => CmdWord.make i.op r.code value
  | .get r => CmdWord.make i.op r.code 0#16
  | .getFlags => CmdWord.make i.op 0#5 0#16
  | .setFlags value => CmdWord.make i.op 0#5 value

end Sys2Proof
end

