-- ==== Sys2Proof/Config.lean ====
section
/-! DEFINITION. The implementation parameters of spec/00_scope.md R5 that the spec leaves to the consumer.
They are constants of an instance (R110). There is no free value in this model: no rule gives an
instruction an undefined result. -/

namespace Sys2Proof

/-- The two open parameters of an instance (spec/92_eei_decisions.md, "Open parameters, gathered"). -/
structure Config where
  /-- `RESET_REG[0..12]`: what RESET writes into the thirteen bank words (R30, D12). -/
  resetReg : Vector Word 13
  /-- `FLAGS_RESET_RESERVED`: only bits 1, 3, 5, 12, 13, 14 are used (R31, D13). -/
  flagsResetReserved : Word
  deriving DecidableEq, Repr

/-- The canonical instance: every parameter at its default (R5: all `0x0000`). -/
def Config.canonical : Config where
  resetReg := Vector.replicate 13 0x0000#16
  flagsResetReserved := 0x0000#16

end Sys2Proof
end

