-- ==== Sys2Proof/Machine/Flags.lean ====
section
/-! DEFINITION. The flags word: bit positions and masks (spec/10_state.md R24, R29), the stuck bit
(R25; spec/40_datapath.md R98), its fifteen stored cells (R35, D15) and its reset value (R31). -/

namespace Sys2Proof.Machine

/-- The nine named flags (R24). -/
inductive Flag where
  | carry | parity | auxiliaryCarry | zero | sign | trap | interruptEnable | direction | overflow
  deriving DecidableEq, Repr

/-- Bit offset of a flag: `CF_OFFS` to `OF_OFFS` (R24, R29). -/
def Flag.offset : Flag → Nat
  | .carry => 0
  | .parity => 2
  | .auxiliaryCarry => 4
  | .zero => 6
  | .sign => 7
  | .trap => 8
  | .interruptEnable => 9
  | .direction => 10
  | .overflow => 11

/-- Mask of a flag, `1 << offset`: `CF` to `OF` (R29). -/
def Flag.mask (f : Flag) : Word := 1#16 <<< f.offset

/-- `STUCK_MASK` (R29). -/
def stuckMask : Word := 0x8000#16

/-- `DEFINED_MASK`, the nine named flags (R29). -/
def definedMask : Word := 0x0FD5#16

/-- `RESERVED_MASK`, bits 1, 3, 5, 12, 13, 14 (R29). -/
def reservedMask : Word := 0x702A#16

/-- `STATUS_MASK`, the six condition flags (R29); no rule depends on it. -/
def statusMask : Word := 0x08D5#16

/-- `CONTROL_MASK`, the three control flags (R29); no rule depends on it. -/
def controlMask : Word := 0x0700#16

/-- Whether a flag is set in a flags value. -/
def Flag.isSetIn (f : Flag) (flags : Word) : Bool := flags.getLsbD f.offset

/-- `stuck(v) = v | 0x8000` (R98). -/
def stuck (v : Word) : Word := v ||| stuckMask

/-- The fifteen stored cells of a flags value, bits 14:0 (R25, R99). -/
def cellsOf (v : Word) : BitVec 15 := v.extractLsb' 0 15

/-- The flags value that fifteen cells hold: bit 15 is the constant 1 (R25, D15; log entry 5). -/
def flagsOfCells (cells : BitVec 15) : Word := stuckMask ||| cells.setWidth 16

/-- The flags value RESET leaves: `0x8000 | (FLAGS_RESET_RESERVED & 0x702A)` (R31, R110). -/
def resetFlags (cfg : Config) : Word := stuckMask ||| (cfg.flagsResetReserved &&& reservedMask)

end Sys2Proof.Machine
end

