-- ==== Sys2Proof/Machine/Operands.lean ====
section
/-! DEFINITION. The operand of SET and GET: what an identifier selects (spec/10_state.md R10, R12; spec/30_encoding.md
R67), byte enables (spec/40_datapath.md R91), the read mux (R92) and the write merge (R94). -/

namespace Sys2Proof

namespace Machine

/-- A byte lane of a bank word: low is bits 7:0, high is bits 15:8 (spec/20_memory.md R42). -/
inductive Lane where
  | low | high
  deriving DecidableEq, Repr

/-- `v[7:0]` -/
def loByte (v : Word) : Byte := v.extractLsb' 0 8

/-- `v[15:8]` -/
def hiByte (v : Word) : Byte := v.extractLsb' 8 8

/-- `{hi, lo}`: two lanes make a word, `(hi << 8) | lo` (R97). -/
def joinBytes (hi lo : Byte) : Word := (hi.setWidth 16 <<< 8) ||| lo.setWidth 16

/-- `zext_16(b)` -/
def zext16 (b : Byte) : Word := b.setWidth 16

/-- One lane of a word. -/
def Lane.of (l : Lane) (v : Word) : Byte :=
  match l with
  | .low => loByte v
  | .high => hiByte v

/-- The other lane of the same word. -/
def Lane.other : Lane → Lane
  | .low => .high
  | .high => .low

/-- The byte enables that name one lane: `be[0]` low, `be[1]` high (R91). -/
def Lane.enable : Lane → BitVec 2
  | .low => 0b01#2
  | .high => 0b10#2

/-- What a valid identifier touches: a bank word and its byte enables (R67). -/
structure Selection where
  idx : Fin 13
  be : BitVec 2
  deriving DecidableEq, Repr

/-- The read value of a bank word seen through byte enables (R92). -/
def rdMux (word : Word) (be : BitVec 2) : Word :=
  match be.toNat with
  | 3 => word
  | 1 => zext16 (loByte word)
  | 2 => zext16 (hiByte word)
  | _ => 0x0000#16

/-- The new value of a bank word written under byte enables: an alias takes `data[7:0]`, for either lane (R94, D7). -/
def wrMerge (old data : Word) (be : BitVec 2) : Word :=
  match be.toNat with
  | 3 => data
  | 1 => joinBytes (hiByte old) (loByte data)
  | 2 => joinBytes (loByte data) (loByte old)
  | _ => old

/-- The result of `rid_decode` as the spec writes it: `(valid, idx, be)` (R67). -/
structure RidDecode where
  valid : Bool
  idx : BitVec 4
  be : BitVec 2
  deriving DecidableEq, Repr

/-- `rid_decode(rid)` on the numeric code, as R67 writes it: the identifier decoder of the port-level design (R90). -/
def ridDecode (rid : BitVec 5) : RidDecode :=
  if rid.toNat ≤ 12 then { valid := true, idx := rid.setWidth 4, be := 0b11#2 }
  else if rid.toNat = 13 then { valid := false, idx := 0#4, be := 0b00#2 }
  else if rid.toNat ≤ 17 then { valid := true, idx := (rid - 14#5).setWidth 4, be := 0b01#2 }
  else if rid.toNat ≤ 21 then { valid := true, idx := (rid - 18#5).setWidth 4, be := 0b10#2 }
  else { valid := false, idx := 0#4, be := 0b00#2 }

end Machine

open Machine

/-- Bank index of a 16-bit name: its position in the document's list (R10). -/
def WordReg.index : WordReg → Fin 13
  | .ax => 0
  | .cx => 1
  | .dx => 2
  | .bx => 3
  | .sp => 4
  | .bp => 5
  | .si => 6
  | .di => 7
  | .ip => 8
  | .es => 9
  | .cs => 10
  | .ss => 11
  | .ds => 12

/-- The register whose byte an alias names (R12). -/
def ByteReg.parent : ByteReg → WordReg
  | .al => .ax
  | .cl => .cx
  | .dl => .dx
  | .bl => .bx
  | .ah => .ax
  | .ch => .cx
  | .dh => .dx
  | .bh => .bx

/-- The lane an alias names (R12). -/
def ByteReg.lane : ByteReg → Lane
  | .al => .low
  | .cl => .low
  | .dl => .low
  | .bl => .low
  | .ah => .high
  | .ch => .high
  | .dh => .high
  | .bh => .high

/-- `rid_decode` on identifiers: the word and lanes a valid one names, none for the sentinel and for codes
beyond the enumeration (R67, R71, R119). -/
def RegId.select : RegId → Option Selection
  | .word r => some { idx := r.index, be := 0b11#2 }
  | .byte a => some { idx := a.parent.index, be := a.lane.enable }
  | .sentinel => none
  | .beyond _ => none

end Sys2Proof
end

