-- ==== Sys2Proof/Machine/State.lean ====
section
/-! DEFINITION. The state: the block's own `S = (R[0..12], FLAGS)` (spec/10_state.md R35), the instance's parameters,
and what stands at its ports: the commands the engine has still to issue, the last response, the error record. -/

namespace Sys2Proof.Machine

/-- The whole architectural state of the block, 223 stored bits (R23, R35). The byte aliases are views, not fields (R12). -/
structure Block where
  /-- `R[0..12]`: AX CX DX BX SP BP SI DI IP ES CS SS DS (R10). -/
  bank : Vector Word 13
  /-- FLAGS bits 14:0; bit 15 is hardwired 1 and has no cell (R25, R35). -/
  flagCells : BitVec 15
  deriving DecidableEq, Repr

/-- The one error kind (spec/60_exceptions.md R160, R161). -/
inductive ErrorKind where
  | invalidRegister
  deriving DecidableEq, Repr

/-- The response of a command (spec/30_encoding.md R69). `ok` and `error` carry no data (spec/40_datapath.md R103). -/
inductive Response where
  | ok
  | data (v : Word)
  | error (e : ErrorKind)
  deriving DecidableEq, Repr

/-- The machine a step acts on. Fields other than `block` are no state of the block (R9, R23). -/
structure State where
  /-- `S`, the block's state. -/
  block : Block
  /-- `RESET_REG` and `FLAGS_RESET_RESERVED`, constants of the instance (R5, R110). DESIGN CHOICE, safe: log entry 4. -/
  config : Config
  /-- The command words the engine has still to issue, first one first (R101, R190). DESIGN CHOICE, safe but for
  claims that rest on its being empty at reset and at creation: log entry 1. -/
  pending : List CmdWord
  /-- The response of the last command applied (R69, R102). DESIGN CHOICE, unsafe at reset: log entry 2. -/
  response : Response
  /-- The wrapper's record that R166 recommends: some response was an error; never cleared.
  DESIGN CHOICE, unsafe at reset: log entry 3. -/
  errorSeen : Bool
  deriving DecidableEq, Repr

/-- There is no fault: the block's one error is a response, after which it goes on (R165, R167).
DEDUCED, unsafe: log entry 13. -/
inductive Fault where
  deriving DecidableEq, Repr

/-- Why a step has no result. -/
inductive Refusal where
  /-- Raised by an arm of `exec` that has no meaning yet; none is left. Safe. -/
  | notModelled (mnemonic : String)
  /-- Raised by `step` when the command word has the reserved `op` 6 or 7 (R70, D10: "A model refuses them"). Safe. -/
  | reservedOperation (op : BitVec 3)
  deriving DecidableEq, Repr

/-- Right after RESET, on the canonical instance (R30, R31): all words `0x0000`, FLAGS `0x8000`, response `Ok`.
The model's own fields: DESIGN CHOICE, log entries 1 to 4. -/
def State.reset : State where
  block := { bank := Config.canonical.resetReg, flagCells := cellsOf (resetFlags Config.canonical) }
  config := Config.canonical
  pending := []
  response := .ok
  errorSeen := false

end Sys2Proof.Machine
end

