-- ==== Sys2Proof/Machine/Ops.lean ====
section
/-! DEFINITION. The named operations over the block and the ports: word and flags access, reset, answering a
command, raising InvalidRegister (spec/60_exceptions.md R165), and the engine's side of the command port. -/

namespace Sys2Proof.Machine

/-! ### The bank and FLAGS -/

/-- `R[i]` (spec/00_scope.md R6). -/
def Block.word (b : Block) (i : Fin 13) : Word := b.bank[i]

/-- `R[i] <- v` (R6). -/
def Block.setWord (b : Block) (i : Fin 13) (v : Word) : Block := { b with bank := b.bank.set i v }

/-- The read path: `rd_mux(R[idx], be)` (spec/40_datapath.md R93). -/
def Block.read (b : Block) (sel : Selection) : Word := rdMux (b.word sel.idx) sel.be

/-- The write path: `R[idx] <- wr_merge(R[idx], data, be)` (R95). -/
def Block.write (b : Block) (sel : Selection) (data : Word) : Block :=
  b.setWord sel.idx (wrMerge (b.word sel.idx) data sel.be)

/-- `FLAGS`: the stored bits with the hardwired bit 15 (spec/10_state.md R25). -/
def Block.flags (b : Block) : Word := flagsOfCells b.flagCells

/-- The flags read path: `stuck(FLAGS)` (R100). -/
def Block.readFlags (b : Block) : Word := stuck b.flags

/-- The flags write path: `FLAGS <- stuck(data)`, which stores `data[14:0]` (R99). -/
def Block.writeFlags (b : Block) (data : Word) : Block := { b with flagCells := cellsOf (stuck data) }

/-- What RESET leaves, whatever was there before: all 26 lanes and FLAGS (R30, R31, R33, R96). -/
def Block.ofReset (cfg : Config) : Block where
  bank := cfg.resetReg
  flagCells := cellsOf (resetFlags cfg)

/-! ### Responses -/

/-- Whether a response is an error. -/
def Response.isError : Response → Bool
  | .ok => false
  | .data _ => false
  | .error _ => true

/-- The port `rsp_err` (R101, R103, R161). -/
def Response.rspErr (r : Response) : Bool := r.isError

/-- The port `rsp_data`: none where R103 leaves it unspecified. DEDUCED, safe: log entry 8. -/
def Response.rspData : Response → Option Word
  | .ok => none
  | .data v => some v
  | .error _ => none

/-- The state after a command that leaves the block as `b` and answers `r`; the wrapper's error record takes
note of an error and is never cleared (R166). -/
def State.answer (s : State) (b : Block) (r : Response) : State :=
  { s with block := b, response := r, errorSeen := s.errorSeen || r.isError }

/-- A command ends: it takes one step and answers in that step (R69, R102). -/
def finish (s : State) (b : Block) (r : Response) : Host.Outcome State Fault Refusal :=
  .next (s.answer b r)

/-- `raise InvalidRegister`: no state is written, nothing is saved, no mode changes and control goes nowhere; the
response is the error (R165, R166). There is no return from it: the next command is applied normally (R167). -/
def raiseInvalidRegister (s : State) : Host.Outcome State Fault Refusal :=
  finish s s.block (.error .invalidRegister)

/-! ### The command port -/

/-- The word an idle cycle carries, `0x000000`, which is NOP (R101, R111, D4). -/
def idleWord : CmdWord := 0x000000#24

/-- The word at the command port: the engine's next command, or the idle word when it has nothing to do (R101).
DEDUCED, safe: log entry 1. -/
def State.portWord (s : State) : CmdWord := s.pending.headD idleWord

/-- The engine moves on to its next command (R50, R102). -/
def State.advance (s : State) : State := { s with pending := s.pending.tail }

/-- A created instance before its first RESET: any contents of the block, fixed at creation (R32, R185, R187).
DESIGN CHOICE, safe: log entry 6. The spec gives the model's own fields no value at creation: that `pending` is empty
(so only idle NOPs run until a command is issued), that `response` is `Ok` and `errorSeen` is false is the model's
DESIGN CHOICE, unsafe for claims that rest on it: log entries 1, 2 and 3. -/
def State.created (cfg : Config) (contents : Block) : State where
  block := contents
  config := cfg
  pending := []
  response := .ok
  errorSeen := false

/-- The engine puts a command before all those it has still to issue. -/
def State.issue (s : State) (cmd : CmdWord) : State := { s with pending := cmd :: s.pending }

end Sys2Proof.Machine
end

