-- ==== Sys2Proof/Machine/FlagsAccess.lean ====
section
/-! DEFINITION. Commands GET_FLAGS and SET_FLAGS (spec/43_flags_access.md). -/

namespace Sys2Proof.Machine

/-- GET_FLAGS: `Data(stuck(FLAGS))`; the block is unchanged (R140). -/
def execGetFlags (s : State) : Host.Outcome State Fault Refusal :=
  finish s s.block (.data s.block.readFlags)

/-- SET_FLAGS: `FLAGS <- stuck(data)`, response `Ok` (R141). -/
def execSetFlags (value : Word) (s : State) : Host.Outcome State Fault Refusal :=
  finish s (s.block.writeFlags value) .ok

end Sys2Proof.Machine
end

