-- ==== Sys2Proof/Machine/RegisterAccess.lean ====
section
/-! DEFINITION. Commands SET and GET under the unified identifier policy (spec/42_register_access.md R119). -/

namespace Sys2Proof.Machine

/-- SET: the identifier is checked before anything is written (R120, R164). -/
def execSet (r : RegId) (value : Word) (s : State) : Host.Outcome State Fault Refusal :=
  match r.select with
  | none => raiseInvalidRegister s
  | some sel => finish s (s.block.write sel value) .ok

/-- GET: the identifier is checked, then the read mux answers; the block is unchanged (R121). -/
def execGet (r : RegId) (s : State) : Host.Outcome State Fault Refusal :=
  match r.select with
  | none => raiseInvalidRegister s
  | some sel => finish s s.block (.data (s.block.read sel))

end Sys2Proof.Machine
end

