-- ==== Sys2Proof/Machine/ResetNop.lean ====
section
/-! DEFINITION. Commands NOP and RESET (spec/41_reset_nop.md). -/

namespace Sys2Proof.Machine

/-- NOP: `S' == S`, response `Ok` (R111). -/
def execNop (s : State) : Host.Outcome State Fault Refusal :=
  finish s s.block .ok

/-- RESET: every bank word takes its `RESET_REG`, FLAGS its reset value, response `Ok` (R110). -/
def execReset (s : State) : Host.Outcome State Fault Refusal :=
  finish s (Block.ofReset s.config) .ok

end Sys2Proof.Machine
end

