-- ==== Sys2Proof/Machine/Dispatch.lean ====
section
/-! DEFINITION. One arm per command (spec/opcode_table.json). -/

namespace Sys2Proof.Machine

def exec (i : Instr) (s : State) : Host.Outcome State Fault Refusal :=
  match i with
  | .nop => Sys2Proof.Machine.execNop s
  | .reset => Sys2Proof.Machine.execReset s
  | .set r value => Sys2Proof.Machine.execSet r value s
  | .get r => Sys2Proof.Machine.execGet r s
  | .getFlags => Sys2Proof.Machine.execGetFlags s
  | .setFlags value => Sys2Proof.Machine.execSetFlags value s

end Sys2Proof.Machine
end

