-- ==== Sys2Proof/Machine/Step.lean ====
section
/-! DEFINITION. One step: the command at the port is decoded and applied (spec/40_datapath.md R102; spec/60_exceptions.md
R164). A reserved `op` is refused before `rid` is looked at (spec/30_encoding.md R70). -/

namespace Sys2Proof.Machine

/-- One command, one step (R102, R190). -/
def step (s : State) : Host.Outcome State Fault Refusal :=
  match decode s.portWord with
  | .ok i => exec i s.advance
  | .error (.reservedOperation op) => .refused (.reservedOperation op)

/-- The engine's next command is the table's word `w`; `nbits` as in `decodeTableWord`. DESIGN CHOICE, safe: log entry 9. -/
def State.withFetchWord (s : State) (nbits w : Nat) : State :=
  s.issue (BitVec.ofNat 24 (w % 2 ^ nbits))

end Sys2Proof.Machine
end

