-- ==== Sys2Proof/Machine/Assembly.lean ====
section
/-! DEFINITION. The engine's notation: assembler lines (spec/30_encoding.md R74) and the conveniences SETF, CLRF, MOV
(R75), each standing for two commands with the engine's own bit operation between them. DESIGN CHOICE, safe: log entry 12. -/

namespace Sys2Proof.Machine

/-- A register operand of an assembler line: a name, the word SENTINEL, or a bare code `#n` (R74). -/
inductive AsmReg where
  | word (r : WordReg)
  | byte (a : ByteReg)
  | sentinel
  | code (n : Nat)
  deriving DecidableEq, Repr

/-- One assembler line; `v` is a numeral, not yet a field (R74). -/
inductive AsmLine where
  | nop
  | reset
  | set (r : AsmReg) (v : Nat)
  | get (r : AsmReg)
  | getFlags
  | setFlags (v : Nat)
  deriving DecidableEq, Repr

/-- `code(r)`; a bare code is a numeral from 0 to 31 (R74), and one above 31 is an assembly error.
DESIGN CHOICE, safe: log entry 12. -/
def AsmReg.toCode : AsmReg → Option (BitVec 5)
  | .word r => some r.code
  | .byte a => some a.code
  | .sentinel => some 13#5
  | .code n => if n ≤ 31 then some (BitVec.ofNat 5 n) else none

/-- A numeral above `0xFFFF` is an assembly error (R74). -/
def asmValue (v : Nat) : Option CmdWord :=
  if v ≤ 0xFFFF then some (BitVec.ofNat 24 v) else none

/-- The `cmd` word of a line, none on an assembly error (the table of R74). -/
def assemble : AsmLine → Option CmdWord
  | .nop => some 0x000000#24
  | .reset => some 0x200000#24
  | .set r v =>
    match r.toCode, asmValue v with
    | some c, some d => some (0x400000#24 ||| (c.setWidth 24 <<< 16) ||| d)
    | _, _ => none
  | .get r =>
    match r.toCode with
    | some c => some (0x600000#24 ||| (c.setWidth 24 <<< 16))
    | none => none
  | .getFlags => some 0x800000#24
  | .setFlags v =>
    match asmValue v with
    | some d => some (0xA00000#24 ||| d)
    | none => none

/-- The engine uses the value a command answered; on an error it has no value and issues nothing more (R75, R167).
DESIGN CHOICE, safe: log entry 12. -/
def thenWithData (o : Host.Outcome State Fault Refusal) (next : Word → Instr) : Host.Outcome State Fault Refusal :=
  match o with
  | .next t =>
    match t.response with
    | .data v => exec (next v) t
    | .ok => .next t
    | .error _ => .next t
  | .fault r => .fault r
  | .refused r => .refused r

/-- `SETF mask`: GET_FLAGS giving `f`, then `SET_FLAGS (f | mask)` (R75). -/
def setF (mask : Word) (s : State) : Host.Outcome State Fault Refusal :=
  thenWithData (exec .getFlags s) fun f => .setFlags (f ||| mask)

/-- `CLRF mask`: GET_FLAGS giving `f`, then `SET_FLAGS (f & ~mask)` (R75). -/
def clrF (mask : Word) (s : State) : Host.Outcome State Fault Refusal :=
  thenWithData (exec .getFlags s) fun f => .setFlags (f &&& ~~~mask)

/-- `MOV rd, rs`: `GET rs` giving `v`, then `SET rd, v` (R75). -/
def mov (rd rs : RegId) (s : State) : Host.Outcome State Fault Refusal :=
  thenWithData (exec (.get rs) s) fun v => .set rd v

end Sys2Proof.Machine
end

