-- ==== Sys2Proof/Machine/Datapath.lean ====
section
/-! DEFINITION. The port-level realisation (spec/40_datapath.md R90 to R103): a second design of the block, from numeric port
inputs through the identifier decoder, one write enable per byte lane and the response mux. It is not what `step` runs;
statements compare the two designs. DESIGN CHOICE, safe: log entry 11. -/

namespace Sys2Proof.Machine

/-- Position of a lane in the byte-enable mask (R91). -/
def Lane.bit : Lane → Nat
  | .low => 0
  | .high => 1

/-- Write enable of one lane of one word: RESET enables all 26, SET those that a valid identifier names (R91, R96). -/
def portLaneEnable (op : BitVec 3) (rid : BitVec 5) (i : Fin 13) (l : Lane) : Bool :=
  op == 1#3 ||
    (op == 2#3 && (ridDecode rid).valid && (ridDecode rid).idx.toNat == i.val && (ridDecode rid).be.getLsbD l.bit)

/-- Write data of one lane: the reset value in a RESET step (R96), else the steered `data` (R94). -/
def portLaneData (cfg : Config) (op : BitVec 3) (rid : BitVec 5) (data : Word) (i : Fin 13) (l : Lane) : Byte :=
  if op == 1#3 then l.of cfg.resetReg[i]
  else
    match l with
    | .low => loByte data
    | .high => if (ridDecode rid).be == 0b10#2 then loByte data else hiByte data

/-- A lane after the clock edge: its write data if enabled, else what it held (R91). -/
def portLaneNext (cfg : Config) (b : Block) (op : BitVec 3) (rid : BitVec 5) (data : Word) (i : Fin 13) (l : Lane) : Byte :=
  if portLaneEnable op rid i l then portLaneData cfg op rid data i l else l.of (b.word i)

/-- The one enable of the fifteen flag cells: SET_FLAGS and RESET (R96, R99). -/
def portFlagsEnable (op : BitVec 3) : Bool := op == 1#3 || op == 5#3

/-- Write data of the flag cells (R96, R99). -/
def portFlagsData (cfg : Config) (op : BitVec 3) (data : Word) : BitVec 15 :=
  if op == 1#3 then cellsOf (resetFlags cfg) else cellsOf (stuck data)

/-- The stored state after one rising clock edge (R102). A reserved `op` enables nothing (R70). -/
def portClock (cfg : Config) (b : Block) (op : BitVec 3) (rid : BitVec 5) (data : Word) : Block where
  bank := Vector.ofFn fun i =>
    joinBytes (portLaneNext cfg b op rid data i .high) (portLaneNext cfg b op rid data i .low)
  flagCells := if portFlagsEnable op then portFlagsData cfg op data else b.flagCells

/-- The word the bank's read select gives for a 4-bit index; only valid indexes 0 to 12 occur (R93). -/
def portWordSelect (b : Block) (idx : BitVec 4) : Word := b.bank.toList.getD idx.toNat 0x0000#16

/-- Output `rsp_err`; none where R103 leaves it unspecified (`op` 6 and 7). -/
def portRspErr (op : BitVec 3) (rid : BitVec 5) : Option Bool :=
  match op.toNat with
  | 0 => some false
  | 1 => some false
  | 2 => some (!(ridDecode rid).valid)
  | 3 => some (!(ridDecode rid).valid)
  | 4 => some false
  | 5 => some false
  | _ => none

/-- Output `rsp_data`; none where R103 leaves it unspecified. -/
def portRspData (b : Block) (op : BitVec 3) (rid : BitVec 5) : Option Word :=
  match op.toNat with
  | 3 =>
    if (ridDecode rid).valid then some (rdMux (portWordSelect b (ridDecode rid).idx) (ridDecode rid).be) else none
  | 4 => some b.readFlags
  | _ => none

end Sys2Proof.Machine
end

