-- ==== Sys2Proof/Machine/History.lean ====
section
/-! DEFINITION. The ordering model read backwards (spec/20_memory.md R50): what a lane of a word, or FLAGS, holds after a
history of commands, found as the latest command that wrote it. -/

namespace Sys2Proof.Machine

/-- What one command writes into lane `l` of word `i`, if it writes it (R17, R46, R96). -/
def laneWrite (cfg : Config) (i : Fin 13) (l : Lane) : Instr → Option Byte
  | .nop => none
  | .reset => some (l.of cfg.resetReg[i])
  | .set (.word r) value => if r.index = i then some (l.of value) else none
  | .set (.byte a) value => if a.parent.index = i ∧ a.lane = l then some (loByte value) else none
  | .set .sentinel _ => none
  | .set (.beyond _) _ => none
  | .get _ => none
  | .getFlags => none
  | .setFlags _ => none

/-- What one command writes into FLAGS, if it writes it (R17, R141). -/
def flagsWrite (cfg : Config) : Instr → Option Word
  | .nop => none
  | .reset => some (resetFlags cfg)
  | .set _ _ => none
  | .get _ => none
  | .getFlags => none
  | .setFlags value => some (stuck value)

/-- The value the latest write gives, else the initial one; the history is listed newest first (R50). -/
def latest {α : Type} (write : Instr → Option α) (initial : α) : List Instr → α
  | [] => initial
  | i :: older => (write i).getD (latest write initial older)

/-- A lane after a history, newest command first (R50, rules 1 and 2). -/
def laneAfter (cfg : Config) (b : Block) (i : Fin 13) (l : Lane) (newestFirst : List Instr) : Byte :=
  latest (laneWrite cfg i l) (l.of (b.word i)) newestFirst

/-- FLAGS after a history, newest command first (R50, rule 3). -/
def flagsAfter (cfg : Config) (b : Block) (newestFirst : List Instr) : Word :=
  latest (flagsWrite cfg) b.flags newestFirst

end Sys2Proof.Machine
end

