-- ==== Sys2Proof/Safety.lean ====
section
/-! DEFINITION. What the engine must respect and what a clean run is: the classes of command words (spec/30_encoding.md R72),
the engine's contract (spec/70_reset_and_hazards.md R189) and the error record (spec/60_exceptions.md R166). -/

namespace Sys2Proof

open Machine

/-- The three classes every command word falls into (R72). -/
inductive CommandClass where
  | legal
  | invalidRegister
  | reserved
  deriving DecidableEq, Repr

/-- Identifier codes that SET and GET reject: 13 and 22 to 31 (R71). -/
def illegalRid (rid : BitVec 5) : Bool := rid.toNat == 13 || decide (22 ≤ rid.toNat)

/-- The class of a command with these fields (R70, R71, R72). -/
def classOf (op : BitVec 3) (rid : BitVec 5) : CommandClass :=
  if 6 ≤ op.toNat then .reserved
  else if (op == 2#3 || op == 3#3) && illegalRid rid then .invalidRegister
  else .legal

/-- The class of a command word (R72). -/
def CmdWord.commandClass (cmd : CmdWord) : CommandClass := classOf cmd.op cmd.rid

/-- The classes of all 256 pairs `(op, rid)`; each pair is shared by 65536 words (R72). -/
def classPairs : List CommandClass :=
  (List.range 8).flatMap fun op => (List.range 32).map fun rid => classOf (BitVec.ofNat 3 op) (BitVec.ofNat 5 rid)

/-- The engine's contract: only the six defined `op` codes (R70, R189). -/
def Machine.State.inContract (s : State) : Prop := ∀ cmd ∈ s.pending, cmd.commandClass ≠ .reserved

/-- A well-wired engine: every command it has still to issue is legal (R72, R166). -/
def Machine.State.wellWired (s : State) : Prop := ∀ cmd ∈ s.pending, cmd.commandClass = .legal

/-- The error record is true to the last response: an error just answered is on record (R166). -/
def Machine.State.recordTrue (s : State) : Prop := s.response.isError = true → s.errorSeen = true

end Sys2Proof
end

