-- ==== Sys2Proof/Certificates/Slice0/Obligations.lean ====
section
/-! DEFINITION. The statements for the provers, from the numbered rules of spec/. -/

namespace Sys2Proof.Claims

open Sys2Proof Sys2Proof.Machine

/-- `S' = S after i`: the command completes and leaves `t` (the notation of spec/42_register_access.md R122). -/
def Leads (s : State) (i : Instr) (t : State) : Prop := exec i s = .next t

/-- `S get r == Data(v)` and its like: the command completes and answers `r` (R122, R142). -/
def Responds (s : State) (i : Instr) (r : Response) : Prop := ∃ t, Leads s i t ∧ t.response = r

/-- After one command, another completes and answers `r`. -/
def ThenResponds (s : State) (i j : Instr) (r : Response) : Prop := ∃ t, Leads s i t ∧ Responds t j r

/-- What no command changes: the parameters of the instance and the engine's pending commands; and the error record
grows by this response alone (spec/60_exceptions.md R166). The fields are the model's own choice, log entries 1, 3 and 4, in
every statement that uses this. -/
def SameSurroundings (s t : State) : Prop :=
  t.config = s.config ∧ t.pending = s.pending ∧ t.errorSeen = (s.errorSeen || t.response.isError)

/-- The four registers that have aliases, each with its low and its high alias (spec/10_state.md R12). -/
def aliased : List (WordReg × ByteReg × ByteReg) :=
  [(.ax, .al, .ah), (.cx, .cl, .ch), (.dx, .dl, .dh), (.bx, .bl, .bh)]

/-- The word whose bank word an identifier touches, if it is valid. -/
def touches (r : RegId) (i : Fin 13) : Prop := ∃ sel, r.select = some sel ∧ sel.idx = i

end Sys2Proof.Claims

open Sys2Proof Sys2Proof.Machine Sys2Proof.Claims

/-! ### The step and the encoding -/

/-- The engine's next word is decoded and applied, the rest stays pending; an idle port carries NOP
(spec/40_datapath.md section 7; that an empty list is an idle port is log entry 1). -/
def Obligations.StepRunsDecodedCommand : Prop :=
  (∀ (s : State) (cmd : CmdWord) (rest : List CmdWord) (i : Instr),
    s.pending = cmd :: rest → decode cmd = .ok i → step s = exec i { s with pending := rest }) ∧
  (∀ s : State, s.pending = [] → step s = exec .nop s)

/-- What `withFetchWord` places is what the next step runs, and nothing else differs (log entry 9). -/
def Obligations.PlacedWordRunsNext : Prop :=
  ∀ (s : State) (nbits w : Nat) (i : Instr),
    decodeTableWord nbits w = some i → step (s.withFetchWord nbits w) = exec i s

/-- Words written out from the encodings of spec/95_test_vectors.md section 2.2, one or more per command. -/
def Obligations.SampleWordsDecode : Prop :=
  decode 0b000_11111_1111111111111111#24 = .ok .nop ∧
  decode 0b001_11010_1011110011011110#24 = .ok .reset ∧
  decode 0b010_01100_1111111111111111#24 = .ok (.set (.word .ds) 0xFFFF#16) ∧
  decode 0b010_10101_1111111100000000#24 = .ok (.set (.byte .bh) 0xFF00#16) ∧
  decode 0b010_01101_0000000000000000#24 = .ok (.set .sentinel 0x0000#16) ∧
  decode 0b011_01100_0001001000110100#24 = .ok (.get (.word .ds)) ∧
  decode 0b011_10110_0000000000000000#24 = .ok (.get (.beyond 22#5)) ∧
  decode 0b100_11111_1111111111111111#24 = .ok .getFlags ∧
  decode 0b101_11111_1111111111111111#24 = .ok (.setFlags 0xFFFF#16) ∧
  decode 0b110_11111_1111111111111111#24 = .error (.reservedOperation 6#3)

/-- R60: the three fields are where the format puts them, and they make up the whole word. -/
def Obligations.FieldsMakeTheWord : Prop :=
  (∀ (op : BitVec 3) (rid : BitVec 5) (data : Word),
    CmdWord.make op rid data = (op.setWidth 24 <<< 21) ||| (rid.setWidth 24 <<< 16) ||| data.setWidth 24 ∧
    (CmdWord.make op rid data).op = op ∧ (CmdWord.make op rid data).rid = rid ∧
    (CmdWord.make op rid data).data = data) ∧
  (∀ cmd : CmdWord, cmd = CmdWord.make cmd.op cmd.rid cmd.data ∧
    cmd.op = cmd.extractLsb' 21 3 ∧ cmd.rid = cmd.extractLsb' 16 5 ∧ cmd.data = cmd.extractLsb' 0 16)

/-- R76, with the identifier decode of R67 for SET and GET. -/
def Obligations.DecodeFollowsTheAlgorithm : Prop :=
  ∀ cmd : CmdWord,
    (cmd.op = 0#3 → decode cmd = .ok .nop) ∧
    (cmd.op = 1#3 → decode cmd = .ok .reset) ∧
    (cmd.op = 2#3 → ∃ r, decode cmd = .ok (.set r cmd.data) ∧ r.code = cmd.rid ∧
      ((ridDecode cmd.rid).valid = true →
        ∃ sel, r.select = some sel ∧ sel.idx.val = (ridDecode cmd.rid).idx.toNat ∧ sel.be = (ridDecode cmd.rid).be) ∧
      ((ridDecode cmd.rid).valid = false → r.select = none)) ∧
    (cmd.op = 3#3 → ∃ r, decode cmd = .ok (.get r) ∧ r.code = cmd.rid ∧
      ((ridDecode cmd.rid).valid = true →
        ∃ sel, r.select = some sel ∧ sel.idx.val = (ridDecode cmd.rid).idx.toNat ∧ sel.be = (ridDecode cmd.rid).be) ∧
      ((ridDecode cmd.rid).valid = false → r.select = none)) ∧
    (cmd.op = 4#3 → decode cmd = .ok .getFlags) ∧
    (cmd.op = 5#3 → decode cmd = .ok (.setFlags cmd.data)) ∧
    (cmd.op = 6#3 ∨ cmd.op = 7#3 → decode cmd = .error (.reservedOperation cmd.op))

/-- Every well-formed command survives encoding: no operand bit is dropped.
Which terms are well formed is the model's choice (log entry 15). -/
def Obligations.DecodeEncodeRoundTrip : Prop :=
  ∀ i : Instr, i.wf = true → decode (encode i) = .ok i

/-- What the decoder gives is well formed, and encoding it again gives the same word with every ignored field zero
(the canonical encoding of R63).
Which terms are well formed is the model's choice (log entry 15). -/
def Obligations.EncodeDecodeIsCanonical : Prop :=
  ∀ (cmd : CmdWord) (i : Instr), decode cmd = .ok i →
    i.wf = true ∧
    encode i = CmdWord.make cmd.op (if cmd.op = 2#3 ∨ cmd.op = 3#3 then cmd.rid else 0#5)
      (if cmd.op = 2#3 ∨ cmd.op = 5#3 then cmd.data else 0#16)

/-- R63: ignored fields change neither the command, nor (so) its effect and response; GET_FLAGS and SET_FLAGS never
raise; canonical encodings have them zero. -/
def Obligations.IgnoredFieldsDoNotMatter : Prop :=
  (∀ (rid rid' : BitVec 5) (data data' : Word),
    decode (CmdWord.make 0#3 rid data) = decode (CmdWord.make 0#3 rid' data') ∧
    decode (CmdWord.make 1#3 rid data) = decode (CmdWord.make 1#3 rid' data') ∧
    decode (CmdWord.make 3#3 rid data) = decode (CmdWord.make 3#3 rid data') ∧
    decode (CmdWord.make 4#3 rid data) = decode (CmdWord.make 4#3 rid' data') ∧
    decode (CmdWord.make 5#3 rid data) = decode (CmdWord.make 5#3 rid' data)) ∧
  (∀ (s : State) (rid : BitVec 5) (data : Word),
    (∃ t, step (s.issue (CmdWord.make 4#3 rid data)) = .next t ∧ t.response.isError = false) ∧
    (∃ t, step (s.issue (CmdWord.make 5#3 rid data)) = .next t ∧ t.response.isError = false)) ∧
  (∀ (r : RegId) (v : Word),
    (encode .nop).rid = 0#5 ∧ (encode .nop).data = 0#16 ∧ (encode .reset).rid = 0#5 ∧ (encode .reset).data = 0#16 ∧
    (encode (.get r)).data = 0#16 ∧ (encode .getFlags).rid = 0#5 ∧ (encode .getFlags).data = 0#16 ∧
    (encode (.setFlags v)).rid = 0#5)

/-- R65 and R66: the code of every name, in the order of the lists, and the ten codes that name nothing.
That identifiers are a type of terms with a wf is the model's choice (log entry 15). -/
def Obligations.IdentifierCodes : Prop :=
  [WordReg.ax, .cx, .dx, .bx, .sp, .bp, .si, .di, .ip, .es, .cs, .ss, .ds].map (fun r => (RegId.word r).code.toNat)
    = [0, 1, 2, 3, 4, 5, 6, 7, 8, 9, 10, 11, 12] ∧
  (∀ r : WordReg, (RegId.word r).code.toNat = r.index.val) ∧
  RegId.sentinel.code.toNat = 13 ∧
  [ByteReg.al, .cl, .dl, .bl, .ah, .ch, .dh, .bh].map (fun a => (RegId.byte a).code.toNat)
    = [14, 15, 16, 17, 18, 19, 20, 21] ∧
  (∀ r : RegId, r.wf = true → RegId.ofCode r.code = r) ∧
  (∀ c : BitVec 5, (RegId.ofCode c).code = c ∧ (22 ≤ c.toNat ↔ RegId.ofCode c = .beyond c))

/-- R67 by ranges: the identifier decoder is total and its five cases do not meet. -/
def Obligations.RidDecodeRanges : Prop :=
  ∀ rid : BitVec 5,
    (rid.toNat ≤ 12 → (ridDecode rid).valid = true ∧ (ridDecode rid).idx.toNat = rid.toNat ∧ (ridDecode rid).be = 0b11#2) ∧
    (rid.toNat = 13 → ridDecode rid = ⟨false, 0#4, 0b00#2⟩) ∧
    (14 ≤ rid.toNat ∧ rid.toNat ≤ 17 →
      (ridDecode rid).valid = true ∧ (ridDecode rid).idx.toNat = rid.toNat - 14 ∧ (ridDecode rid).be = 0b01#2) ∧
    (18 ≤ rid.toNat ∧ rid.toNat ≤ 21 →
      (ridDecode rid).valid = true ∧ (ridDecode rid).idx.toNat = rid.toNat - 18 ∧ (ridDecode rid).be = 0b10#2) ∧
    (22 ≤ rid.toNat → ridDecode rid = ⟨false, 0#4, 0b00#2⟩)

/-- R70: a reserved `op` has no step, whatever `rid` and `data` hold; in the port-level design it leaves the stored
state unchanged and its response is unspecified.
The refusal is the spec's own decision D10 (log entry 7); no value of an unspecified output is log entry 8, and the port-level
functions are log entry 11. -/
def Obligations.ReservedOperationsRefused : Prop :=
  ∀ (s : State) (rid : BitVec 5) (data : Word) (op : BitVec 3), op = 6#3 ∨ op = 7#3 →
    step (s.issue (CmdWord.make op rid data)) = .refused (.reservedOperation op) ∧
    portClock s.config s.block op rid data = s.block ∧
    portRspErr op rid = none ∧ portRspData s.block op rid = none

/-- Section 5 of spec/30_encoding.md: each word is in one class, the class tells how the command ends, and the counts per
(op, rid) pair times 65536 are those of the section. -/
def Obligations.CommandClassesPartition : Prop :=
  (∀ (s : State) (cmd : CmdWord),
    (cmd.commandClass = .reserved ↔ step (s.issue cmd) = .refused (.reservedOperation cmd.op)) ∧
    (cmd.commandClass = .invalidRegister ↔
      ∃ t, step (s.issue cmd) = .next t ∧ t.response = .error .invalidRegister) ∧
    (cmd.commandClass = .legal ↔ ∃ t, step (s.issue cmd) = .next t ∧ t.response.isError = false)) ∧
  classPairs.count .reserved * 65536 = 4194304 ∧ classPairs.count .invalidRegister * 65536 = 1441792 ∧
  classPairs.count .legal * 65536 = 11141120

/-- R74: the word of every assembler line is the canonical encoding of the command it names, and a numeral above `0xFFFF`
is an assembly error. That a bare code above 31, which R74 gives no line, assembles to nothing as well is the model's
choice (log entry 12). -/
def Obligations.AssemblerWords : Prop :=
  (∀ (w : WordReg) (a : ByteReg) (n v : Nat), n ≤ 31 → v ≤ 0xFFFF →
    assemble .nop = some (encode .nop) ∧ assemble .reset = some (encode .reset) ∧
    assemble .getFlags = some (encode .getFlags) ∧
    assemble (.setFlags v) = some (encode (.setFlags (BitVec.ofNat 16 v))) ∧
    assemble (.set (.word w) v) = some (encode (.set (.word w) (BitVec.ofNat 16 v))) ∧
    assemble (.set (.byte a) v) = some (encode (.set (.byte a) (BitVec.ofNat 16 v))) ∧
    assemble (.set .sentinel v) = some (encode (.set .sentinel (BitVec.ofNat 16 v))) ∧
    assemble (.set (.code n) v) = some (encode (.set (RegId.ofCode (BitVec.ofNat 5 n)) (BitVec.ofNat 16 v))) ∧
    assemble (.get (.word w)) = some (encode (.get (.word w))) ∧
    assemble (.get (.byte a)) = some (encode (.get (.byte a))) ∧
    assemble (.get .sentinel) = some (encode (.get .sentinel)) ∧
    assemble (.get (.code n)) = some (encode (.get (RegId.ofCode (BitVec.ofNat 5 n))))) ∧
  (∀ (r : AsmReg) (v : Nat), 0xFFFF < v → assemble (.set r v) = none ∧ assemble (.setFlags v) = none) ∧
  (∀ n v : Nat, 31 < n → assemble (.set (.code n) v) = none ∧ assemble (.get (.code n)) = none)

/-- R75: SETF and CLRF change exactly the mask's bits of FLAGS (bit 15 stays 1). MOV completes: where GET answers data, with
the block and the response of a SET of that data; where GET answers the error, with that error and nothing written, which
is the model's choice (log entry 12). -/
def Obligations.ConveniencesExpand : Prop :=
  (∀ (s : State) (mask : Word),
    (∃ t, setF mask s = .next t ∧ t.block = s.block.writeFlags (s.block.flags ||| mask) ∧ t.response = .ok) ∧
    (∃ t, clrF mask s = .next t ∧ t.block = s.block.writeFlags (s.block.flags &&& ~~~mask) ∧ t.response = .ok)) ∧
  (∀ (s : State) (rd rs : RegId) (v : Word), Responds s (.get rs) (.data v) →
    ∃ t u, mov rd rs s = .next t ∧ exec (.set rd v) s = .next u ∧ t.block = u.block ∧ t.response = u.response) ∧
  (∀ (s : State) (rd rs : RegId) (e : ErrorKind), Responds s (.get rs) (.error e) →
    ∃ t, mov rd rs s = .next t ∧ t.block = s.block ∧ t.response = .error e)

/-! ### The pure functions -/

/-- R92: the read mux, with the mask and shift forms the rule gives beside each line. -/
def Obligations.ReadMux : Prop :=
  ∀ word : Word,
    rdMux word 0b11#2 = word ∧
    rdMux word 0b01#2 = (word.extractLsb' 0 8).setWidth 16 ∧ rdMux word 0b01#2 = word &&& 0x00FF#16 ∧
    rdMux word 0b10#2 = (word.extractLsb' 8 8).setWidth 16 ∧ rdMux word 0b10#2 = word >>> 8 ∧
    rdMux word 0b00#2 = 0x0000#16

/-- R94: the write merge, with the mask forms and the equivalent lane-steering form. -/
def Obligations.WriteMerge : Prop :=
  ∀ old data : Word,
    wrMerge old data 0b11#2 = data ∧
    wrMerge old data 0b01#2 = (old &&& 0xFF00#16) ||| (data &&& 0x00FF#16) ∧
    wrMerge old data 0b10#2 = (old &&& 0x00FF#16) ||| ((data &&& 0x00FF#16) <<< 8) ∧
    wrMerge old data 0b00#2 = old ∧
    ∀ be : BitVec 2, wrMerge old data be =
      joinBytes (if be.getLsbD 1 then (if be = 0b10#2 then loByte data else hiByte data) else hiByte old)
        (if be.getLsbD 0 then loByte data else loByte old)

/-- R98: bit 15 of the result is 1 and bits 14:0 are those of the argument. -/
def Obligations.StuckFunction : Prop :=
  ∀ v : Word, stuck v = v ||| 0x8000#16 ∧ (stuck v).getLsbD 15 = true ∧
    ∀ k, k < 15 → (stuck v).getLsbD k = v.getLsbD k

/-- Laws L1 to L10 of spec/40_datapath.md section 5. -/
def Obligations.DatapathLaws : Prop :=
  ∀ (o d e : Word) (be : BitVec 2), be = 0b11#2 ∨ be = 0b01#2 ∨ be = 0b10#2 →
    rdMux (wrMerge o d be) be = (if be = 0b11#2 then d else zext16 (loByte d)) ∧
    rdMux (wrMerge o d 0b01#2) 0b10#2 = rdMux o 0b10#2 ∧ rdMux (wrMerge o d 0b10#2) 0b01#2 = rdMux o 0b01#2 ∧
    o = joinBytes (loByte (rdMux o 0b10#2)) (loByte (rdMux o 0b01#2)) ∧
    o = (rdMux o 0b10#2 <<< 8) ||| rdMux o 0b01#2 ∧
    wrMerge (wrMerge o d be) e be = wrMerge o e be ∧
    wrMerge (wrMerge o d 0b01#2) e 0b10#2 = joinBytes (loByte e) (loByte d) ∧
    wrMerge (wrMerge o e 0b10#2) d 0b01#2 = joinBytes (loByte e) (loByte d) ∧
    wrMerge (wrMerge o d 0b01#2) e 0b11#2 = e ∧ wrMerge (wrMerge o d 0b10#2) e 0b11#2 = e ∧
    rdMux o 0b01#2 ≤ 0x00FF#16 ∧ rdMux o 0b10#2 ≤ 0x00FF#16 ∧
    wrMerge (wrMerge o d be) d be = wrMerge o d be ∧
    wrMerge o d 0b01#2 = wrMerge o (d &&& 0x00FF#16) 0b01#2 ∧
    wrMerge o d 0b10#2 = wrMerge o (d &&& 0x00FF#16) 0b10#2 ∧
    stuck (stuck d) = stuck d ∧ (stuck d).getLsbD 15 = true ∧ ∀ k, k < 15 → (stuck d).getLsbD k = d.getLsbD k

/-! ### The commands -/

/-- R111: the words of NOP, its effect, and that a NOP before a command changes nothing of that command.
Beside the rule, `SameSurroundings` is the model's choice (log entries 1, 3, 4). -/
def Obligations.NopCommand : Prop :=
  encode .nop = 0x000000#24 ∧
  (∀ cmd : CmdWord, cmd &&& 0xE00000#24 = 0x000000#24 → decode cmd = .ok .nop) ∧
  (∀ s : State, ∃ t, exec .nop s = .next t ∧ t.block = s.block ∧ t.response = .ok ∧ SameSurroundings s t ∧
    ∀ i : Instr, exec i t = exec i s)

/-- R110: the words of RESET, what it writes, that it is idempotent and does not depend on the state before it.
Beside the rule, `SameSurroundings` is the model's choice (log entries 1, 3, 4):
the pending commands and the error record stay. -/
def Obligations.ResetCommand : Prop :=
  encode .reset = 0x200000#24 ∧
  (∀ cmd : CmdWord, cmd &&& 0xE00000#24 = 0x200000#24 → decode cmd = .ok .reset) ∧
  (∀ s : State, ∃ t, exec .reset s = .next t ∧ t.response = .ok ∧ SameSurroundings s t ∧
    (∀ i : Fin 13, t.block.word i = s.config.resetReg[i]) ∧
    t.block.flags = 0x8000#16 ||| (s.config.flagsResetReserved &&& 0x702A#16) ∧
    (∀ f : Flag, f.isSetIn t.block.flags = false) ∧
    (∀ a : ByteReg, Responds t (.get (.byte a)) (.data (rdMux s.config.resetReg[a.parent.index] a.lane.enable))) ∧
    (s.config = Config.canonical → (∀ i : Fin 13, t.block.word i = 0x0000#16) ∧ t.block.flags = 0x8000#16) ∧
    exec .reset t = .next t) ∧
  (∀ s s' t t' : State, s.config = s'.config → exec .reset s = .next t → exec .reset s' = .next t' → t.block = t'.block)

/-- R30: after RESET each word is its parameter; on the canonical instance every 16-bit name reads `0x0000` and every
alias `0x00`. -/
def Obligations.ResetBankValues : Prop :=
  (∀ i : Fin 13, Config.canonical.resetReg[i] = 0x0000#16) ∧
  (∀ s : State, ∃ t, exec .reset s = .next t ∧ (∀ i : Fin 13, t.block.word i = s.config.resetReg[i]) ∧
    (s.config.resetReg = Config.canonical.resetReg →
      (∀ w : WordReg, Responds t (.get (.word w)) (.data 0x0000#16)) ∧
      (∀ a : ByteReg, Responds t (.get (.byte a)) (.data 0x0000#16))))

/-- R31: FLAGS after RESET; the nine defined flags are 0 whatever the parameter holds; the default gives `0x8000`. -/
def Obligations.ResetFlagsValue : Prop :=
  Config.canonical.flagsResetReserved = 0x0000#16 ∧
  (∀ s : State, ∃ t, exec .reset s = .next t ∧
    t.block.flags = 0x8000#16 ||| (s.config.flagsResetReserved &&& 0x702A#16) ∧
    t.block.flags.getLsbD 15 = true ∧ (∀ f : Flag, f.isSetIn t.block.flags = false) ∧
    (s.config.flagsResetReserved = 0x0000#16 → t.block.flags = 0x8000#16))

/-- What `State.reset` is: the state a RESET command leaves on the canonical instance, with nothing pending and no error
on record (the model's choices of log entries 1, 2, 3 and 4). -/
def Obligations.ResetStateIsAfterReset : Prop :=
  (∀ i : Fin 13, State.reset.block.word i = 0x0000#16) ∧ State.reset.block.flags = 0x8000#16 ∧
  (∀ s : State, s.config = Config.canonical → s.pending = [] → s.errorSeen = false →
    exec .reset s = .next State.reset)

/-- R120 in the rule's own numbers: the word of SET, and its effect by identifier code.
Beside the rule, `SameSurroundings` is the model's choice (log entries 1, 3, 4). -/
def Obligations.SetCommand : Prop :=
  ∀ (s : State) (rid : BitVec 5) (data : Word), ∃ r t,
    decode (0x400000#24 ||| (rid.setWidth 24 <<< 16) ||| data.setWidth 24) = .ok (.set r data) ∧
    exec (.set r data) s = .next t ∧ SameSurroundings s t ∧ t.block.flags = s.block.flags ∧
    (∀ i : Fin 13, rid.toNat = i.val →
      t.response = .ok ∧ t.block.word i = data ∧ (∀ j, j ≠ i → t.block.word j = s.block.word j) ∧
      Responds t (.get r) (.data data)) ∧
    (∀ i : Fin 13, i.val < 4 → rid.toNat = 14 + i.val →
      t.response = .ok ∧ t.block.word i = joinBytes (hiByte (s.block.word i)) (loByte data) ∧
      (∀ j, j ≠ i → t.block.word j = s.block.word j) ∧ Responds t (.get r) (.data (zext16 (loByte data)))) ∧
    (∀ i : Fin 13, i.val < 4 → rid.toNat = 18 + i.val →
      t.response = .ok ∧ t.block.word i = joinBytes (loByte data) (loByte (s.block.word i)) ∧
      (∀ j, j ≠ i → t.block.word j = s.block.word j) ∧ Responds t (.get r) (.data (zext16 (loByte data)))) ∧
    (rid.toNat = 13 ∨ 22 ≤ rid.toNat → t.response = .error .invalidRegister ∧ t.block = s.block)

/-- R121 in the rule's own numbers: the words of GET (`data` ignored), its response by identifier code, that a GET repeated
at once answers the same (of corner case (c) no more than that) and that FLAGS has no part in it.
Beside the rule, `SameSurroundings` is the model's choice (log entries 1, 3, 4). -/
def Obligations.GetCommand : Prop :=
  ∀ (s : State) (rid : BitVec 5) (data : Word), ∃ r t,
    decode (0x600000#24 ||| (rid.setWidth 24 <<< 16) ||| data.setWidth 24) = .ok (.get r) ∧
    encode (.get r) = 0x600000#24 ||| (rid.setWidth 24 <<< 16) ∧
    exec (.get r) s = .next t ∧ SameSurroundings s t ∧ t.block = s.block ∧ Responds t (.get r) t.response ∧
    (∀ cells, Responds { s with block := { s.block with flagCells := cells } } (.get r) t.response) ∧
    (∀ i : Fin 13, rid.toNat = i.val → t.response = .data (s.block.word i)) ∧
    (∀ i : Fin 13, i.val < 4 → rid.toNat = 14 + i.val → t.response = .data (zext16 (loByte (s.block.word i)))) ∧
    (∀ i : Fin 13, i.val < 4 → rid.toNat = 18 + i.val → t.response = .data (zext16 (hiByte (s.block.word i)))) ∧
    (rid.toNat = 13 ∨ 22 ≤ rid.toNat → t.response = .error .invalidRegister)

/-- R140: the words of GET_FLAGS and its response, the same again until a SET_FLAGS or a RESET.
Beside the rule, `SameSurroundings` is the model's choice (log entries 1, 3, 4). -/
def Obligations.GetFlagsCommand : Prop :=
  encode .getFlags = 0x800000#24 ∧
  (∀ cmd : CmdWord, cmd &&& 0xE00000#24 = 0x800000#24 → decode cmd = .ok .getFlags) ∧
  (∀ s : State, ∃ t v, exec .getFlags s = .next t ∧ t.block = s.block ∧ SameSurroundings s t ∧ t.response = .data v ∧
    v = stuck s.block.flags ∧ v = 0x8000#16 ||| s.block.flagCells.setWidth 16 ∧ 0x8000#16 ≤ v ∧
    Responds t .getFlags (.data v) ∧
    ∀ i : Instr, i ≠ .reset → (∀ w, i ≠ .setFlags w) → ThenResponds t i .getFlags (.data v))

/-- R141: the words of SET_FLAGS, that it stores every bit but 15 as given, and that bit 15 of its operand does not matter.
Beside the rule, `SameSurroundings` is the model's choice (log entries 1, 3, 4). -/
def Obligations.SetFlagsCommand : Prop :=
  (∀ v : Word, encode (.setFlags v) = 0xA00000#24 ||| v.setWidth 24) ∧
  (∀ cmd : CmdWord, cmd &&& 0xE00000#24 = 0xA00000#24 → decode cmd = .ok (.setFlags cmd.data)) ∧
  (∀ (s : State) (v : Word), ∃ t, exec (.setFlags v) s = .next t ∧ t.response = .ok ∧ SameSurroundings s t ∧
    t.block.bank = s.block.bank ∧ t.block.flags = v ||| 0x8000#16 ∧
    (∀ k, k < 15 → t.block.flags.getLsbD k = v.getLsbD k) ∧ t.block.flags.getLsbD 15 = true ∧
    exec (.setFlags (v ^^^ 0x8000#16)) s = .next t)

/-- R122: laws P1 to P9 of SET and GET, over every state. -/
def Obligations.RegisterAccessLaws : Prop :=
  ∀ (s : State) (v w : Word),
    (∀ r : WordReg, ThenResponds s (.set (.word r) v) (.get (.word r)) (.data v)) ∧
    (∀ x xl xh, (x, xl, xh) ∈ aliased →
      ThenResponds s (.set (.word x) v) (.get (.byte xl)) (.data (v &&& 0x00FF#16)) ∧
      ThenResponds s (.set (.word x) v) (.get (.byte xh)) (.data ((v >>> 8) &&& 0x00FF#16))) ∧
    (∀ x xl xh, (x, xl, xh) ∈ aliased →
      ThenResponds s (.set (.byte xl) w) (.get (.word x))
        (.data ((s.block.word x.index &&& 0xFF00#16) ||| (w &&& 0x00FF#16))) ∧
      (∀ resp, Responds s (.get (.byte xh)) resp → ThenResponds s (.set (.byte xl) w) (.get (.byte xh)) resp)) ∧
    (∀ x xl xh, (x, xl, xh) ∈ aliased →
      ThenResponds s (.set (.byte xh) w) (.get (.word x))
        (.data ((s.block.word x.index &&& 0x00FF#16) ||| ((w &&& 0x00FF#16) <<< 8))) ∧
      (∀ resp, Responds s (.get (.byte xl)) resp → ThenResponds s (.set (.byte xh) w) (.get (.byte xl)) resp)) ∧
    (∀ r q : RegId, ∀ i j : Fin 13, touches r i → touches q j → i ≠ j →
      ∀ resp, Responds s (.get q) resp → ThenResponds s (.set r v) (.get q) resp) ∧
    (∀ r : RegId, ∃ t, Leads s (.set r v) t ∧ t.block.flags = s.block.flags) ∧
    (∀ c : BitVec 5, c.toNat = 13 ∨ 22 ≤ c.toNat →
      (∃ t, Leads s (.set (RegId.ofCode c) v) t ∧ t.block = s.block ∧ t.response = .error .invalidRegister) ∧
      (∃ t, Leads s (.get (RegId.ofCode c)) t ∧ t.block = s.block ∧ t.response = .error .invalidRegister)) ∧
    (∀ r : RegId, ∃ t, Leads s (.get r) t ∧ t.block = s.block) ∧
    (∀ x xl xh, (x, xl, xh) ∈ aliased →
      (∃ t, Leads s (.set (.byte xl) v) t ∧ ThenResponds t (.set (.byte xh) w) (.get (.word x))
        (.data (((w &&& 0xFF#16) <<< 8) ||| (v &&& 0xFF#16)))) ∧
      (∃ t, Leads s (.set (.byte xh) w) t ∧ ThenResponds t (.set (.byte xl) v) (.get (.word x))
        (.data (((w &&& 0xFF#16) <<< 8) ||| (v &&& 0xFF#16)))))

/-- R142: laws Q1 to Q7 of GET_FLAGS and SET_FLAGS, over every state. -/
def Obligations.FlagsAccessLaws : Prop :=
  ∀ (s : State) (v w : Word),
    ThenResponds s (.setFlags v) .getFlags (.data (v ||| 0x8000#16)) ∧
    (∃ f, Responds s .getFlags (.data f)) ∧
    (∀ f, Responds s .getFlags (.data f) → f &&& 0x8000#16 = 0x8000#16) ∧
    (∃ t u, Leads s (.setFlags v) t ∧ Leads t (.setFlags w) u ∧ Leads s (.setFlags w) u) ∧
    (∃ t, Leads s (.setFlags v) t ∧ ∀ i, t.block.word i = s.block.word i) ∧
    (∃ t, Leads s .getFlags t ∧ t.block = s.block) ∧
    (∀ f, Responds s .getFlags (.data f) → ∃ t, Leads s (.setFlags f) t ∧ t.block = s.block) ∧
    ThenResponds s .reset .getFlags (.data (0x8000#16 ||| (s.config.flagsResetReserved &&& 0x702A#16))) ∧
    (s.config.flagsResetReserved = 0x0000#16 → ThenResponds s .reset .getFlags (.data 0x8000#16))

/-- Before the first RESET (spec/95_test_vectors.md section 2.10; log entry 6): a read answers what creation left, with bit 15
of FLAGS 1, an alias SET keeps the unspecified other byte, and nothing of the contents survives RESET. The model's own fields of
`State.created` (no command pending, `Ok`, no error on record) are its choice, log entries 1, 2 and 3; no clause rests on their values. -/
def Obligations.CreatedContentsUntilReset : Prop :=
  ∀ (cfg : Config) (b b' : Block) (v : Word),
    (∀ w : WordReg, Responds (State.created cfg b) (.get (.word w)) (.data (b.word w.index))) ∧
    (∀ a : ByteReg, Responds (State.created cfg b) (.get (.byte a)) (.data (zext16 (a.lane.of (b.word a.parent.index))))) ∧
    Responds (State.created cfg b) .getFlags (.data (0x8000#16 ||| b.flagCells.setWidth 16)) ∧
    Responds (State.created cfg b) (.get .sentinel) (.error .invalidRegister) ∧
    ThenResponds (State.created cfg b) (.set (.byte .al) v) (.get (.word .ax))
      (.data ((b.word 0 &&& 0xFF00#16) ||| (v &&& 0x00FF#16))) ∧
    exec .reset (State.created cfg b) = exec .reset (State.created cfg b')

/-! ### State and aliases -/

/-- R12: the alias table, each alias read as the bits of its parent it names; no identifier names one byte of a word
other than the first four.
The table is R12's. That GET takes an alias and answers its byte zero-extended to 16 bits is R14 and R121, which rest on the
spec's own decisions D6 and D8 (log entry 16). -/
def Obligations.AliasTable : Prop :=
  ([ByteReg.al, .cl, .dl, .bl, .ah, .ch, .dh, .bh].map fun a => (a.parent, a.parent.index, a.lane))
    = [(.ax, 0, .low), (.cx, 1, .low), (.dx, 2, .low), (.bx, 3, .low),
       (.ax, 0, .high), (.cx, 1, .high), (.dx, 2, .high), (.bx, 3, .high)] ∧
  (∀ (s : State) (a : ByteReg), Responds s (.get (.byte a))
    (.data (match a.lane with
      | .low => ((s.block.word a.parent.index).extractLsb' 0 8).setWidth 16
      | .high => ((s.block.word a.parent.index).extractLsb' 8 8).setWidth 16))) ∧
  (∀ (r : RegId) (sel : Selection), r.select = some sel → sel.be = 0b11#2 ∨ sel.idx.val < 4)

/-- R13: writing an alias mutates exactly the corresponding byte of its parent: not the other byte, no other register,
no bit of FLAGS. That the byte becomes `data[7:0]`, for either lane and every 16-bit `data`, is not R13's: it is the spec's
own decision D7 (R120 corner case (a); log entry 16). -/
def Obligations.AliasWriteInvariant : Prop :=
  ∀ (s : State) (a : ByteReg) (v : Word), ∃ t, exec (.set (.byte a) v) s = .next t ∧ t.response = .ok ∧
    a.lane.of (t.block.word a.parent.index) = loByte v ∧
    a.lane.other.of (t.block.word a.parent.index) = a.lane.other.of (s.block.word a.parent.index) ∧
    (∀ j, j ≠ a.parent.index → t.block.word j = s.block.word j) ∧ t.block.flags = s.block.flags

/-- R14: reading an alias returns exactly that byte, zero-extended to 16 bits.
That GET takes an alias and answers 16 bits are the spec's own decisions D6 and D8 (log entry 16). -/
def Obligations.AliasReadInvariant : Prop :=
  ∀ (s : State) (a : ByteReg), ∃ t v, exec (.get (.byte a)) s = .next t ∧ t.response = .data v ∧
    loByte v = a.lane.of (s.block.word a.parent.index) ∧ hiByte v = 0x00#8 ∧ v ≤ 0x00FF#16

/-- R16: a write through any identifier changes no word but the one it touches and not FLAGS; a write to FLAGS changes
no word. -/
def Obligations.StateIndependence : Prop :=
  ∀ (s : State) (r : RegId) (v : Word),
    (∃ t, exec (.set r v) s = .next t ∧ t.block.flags = s.block.flags ∧
      ∀ j, ¬ touches r j → t.block.word j = s.block.word j) ∧
    (∃ t, exec (.setFlags v) s = .next t ∧ ∀ j, t.block.word j = s.block.word j)

/-- R25: bit 15 of FLAGS is 1 in every state and in every response of GET_FLAGS; no command makes it 0. -/
def Obligations.StuckBitHardwired : Prop :=
  (∀ s : State, s.block.flags.getLsbD 15 = true) ∧
  (∀ (s : State) (i : Instr), ∃ t, exec i s = .next t ∧ t.block.flags.getLsbD 15 = true ∧
    ∀ f, Responds t .getFlags (.data f) → f.getLsbD 15 = true)

/-- R28: the legal FLAGS values are `0x8000` to `0xFFFF`, all of them and no other; bits 14:0 are stored and returned as
given; bit 15 reads 1. -/
def Obligations.LegalFlagsValues : Prop :=
  (∀ v : Word, (∃ b : Block, b.flags = v) ↔ 0x8000#16 ≤ v) ∧
  (∀ (s : State) (v : Word), ∃ t f, exec (.setFlags v) s = .next t ∧ Responds t .getFlags (.data f) ∧
    (∀ k, k < 15 → f.getLsbD k = v.getLsbD k) ∧ f.getLsbD 15 = true)

/-- R27: flags are data, stored and returned. With any other FLAGS in the state every command writes the same bank and, but for GET_FLAGS, gives
the same response; only SET_FLAGS and RESET write FLAGS, and what they write does not depend on FLAGS. -/
def Obligations.FlagsHaveNoEffect : Prop :=
  (∀ (s : State) (v : Word) (f : Flag), ∃ t w, exec (.setFlags v) s = .next t ∧ Responds t .getFlags (.data w) ∧
    f.isSetIn w = f.isSetIn v) ∧
  ∀ (i : Instr) (s : State) (cells : BitVec 15), ∃ t u, exec i s = .next t ∧
    exec i { s with block := { s.block with flagCells := cells } } = .next u ∧
    u.block.bank = t.block.bank ∧ (i ≠ .getFlags → u.response = t.response) ∧
    (i ≠ .reset → (∀ v, i ≠ .setFlags v) → t.block.flags = s.block.flags) ∧
    (i = .reset ∨ (∃ v, i = .setFlags v) → u.block.flags = t.block.flags)

/-- R29: the constants of the flags interface. -/
def Obligations.FlagConstants : Prop :=
  ([Flag.carry, .parity, .auxiliaryCarry, .zero, .sign, .trap, .interruptEnable, .direction, .overflow].map Flag.offset
    = [0, 2, 4, 6, 7, 8, 9, 10, 11]) ∧
  ([Flag.carry, .parity, .auxiliaryCarry, .zero, .sign, .trap, .interruptEnable, .direction, .overflow].map Flag.mask
    = [0x0001, 0x0004, 0x0010, 0x0040, 0x0080, 0x0100, 0x0200, 0x0400, 0x0800]) ∧
  stuckMask = 0x8000#16 ∧
  definedMask = Flag.mask .carry ||| Flag.mask .parity ||| Flag.mask .auxiliaryCarry ||| Flag.mask .zero ||| Flag.mask .sign
    ||| Flag.mask .trap ||| Flag.mask .interruptEnable ||| Flag.mask .direction ||| Flag.mask .overflow ∧
  definedMask = 0x0FD5#16 ∧ reservedMask = 0x702A#16 ∧
  (∀ k, reservedMask.getLsbD k = true ↔ k ∈ [1, 3, 5, 12, 13, 14]) ∧
  statusMask = Flag.mask .carry ||| Flag.mask .parity ||| Flag.mask .auxiliaryCarry ||| Flag.mask .zero ||| Flag.mask .sign
    ||| Flag.mask .overflow ∧ statusMask = 0x08D5#16 ∧
  controlMask = Flag.mask .trap ||| Flag.mask .interruptEnable ||| Flag.mask .direction ∧ controlMask = 0x0700#16 ∧
  definedMask ||| reservedMask ||| stuckMask = 0xFFFF#16 ∧
  definedMask &&& reservedMask = 0#16 ∧ definedMask &&& stuckMask = 0#16 ∧ reservedMask &&& stuckMask = 0#16

/-- R33: the block after RESET depends on the parameters alone, every word reads as its initial value and GET_FLAGS as the
reset flags with bit 15 set, and RESET twice leaves what RESET once leaves. -/
def Obligations.ResetIsDeterministic : Prop :=
  ∀ s s' : State, s.config = s'.config → ∃ t t' u, exec .reset s = .next t ∧ exec .reset s' = .next t' ∧
    exec .reset t = .next u ∧ t.block = t'.block ∧ u.block = t.block ∧ u.response = t.response ∧
    (∀ w : WordReg, Responds t (.get (.word w)) (.data s.config.resetReg[w.index])) ∧
    Responds t .getFlags (.data (resetFlags s.config)) ∧ (resetFlags s.config).getLsbD 15 = true

/-- R43: what a mixed-width access sees, for each register that has aliases. -/
def Obligations.MixedWidthAccess : Prop :=
  ∀ (s : State) (v : Word), ∀ x xl xh, (x, xl, xh) ∈ aliased →
    ThenResponds s (.set (.word x) v) (.get (.byte xl)) (.data (zext16 (v.extractLsb' 0 8))) ∧
    ThenResponds s (.set (.word x) v) (.get (.byte xh)) (.data (zext16 (v.extractLsb' 8 8))) ∧
    ThenResponds s (.set (.byte xl) v) (.get (.word x)) (.data (joinBytes (hiByte (s.block.word x.index)) (loByte v))) ∧
    ThenResponds s (.set (.byte xh) v) (.get (.word x)) (.data (joinBytes (loByte v) (loByte (s.block.word x.index)))) ∧
    (∀ resp, Responds s (.get (.byte xh)) resp → ThenResponds s (.set (.byte xl) v) (.get (.byte xh)) resp) ∧
    (∀ resp, Responds s (.get (.byte xl)) resp → ThenResponds s (.set (.byte xh) v) (.get (.byte xl)) resp)

/-- Every command applied twice leaves what it left the first time and answers the same (spec/20_memory.md section 4:
reads and writes are idempotent). -/
def Obligations.CommandsAreIdempotent : Prop :=
  ∀ (i : Instr) (s : State), ∃ t u, exec i s = .next t ∧ exec i t = .next u ∧ u.block = t.block ∧ u.response = t.response

/-! ### Frames -/

/-- What NOP, GET and GET_FLAGS leave unchanged: the whole block; and by the model's choice (log entries 1, 3, 4) the
parameters, the pending commands and, but for an error's mark, the record. -/
def Obligations.FrameNopGetGetFlags : Prop :=
  ∀ (i : Instr) (s t : State), (i = .nop ∨ (∃ r, i = .get r) ∨ i = .getFlags) → exec i s = .next t →
    t.block = s.block ∧ SameSurroundings s t

/-- What SET leaves unchanged: every word its identifier does not touch, for an alias the other byte too, FLAGS; and
by the model's choice (log entries 1, 3, 4) the parameters, the pending commands and, but for an error's mark, the record. -/
def Obligations.FrameSet : Prop :=
  ∀ (r : RegId) (v : Word) (s t : State), exec (.set r v) s = .next t →
    (∀ j, ¬ touches r j → t.block.word j = s.block.word j) ∧
    (∀ a, r = .byte a → a.lane.other.of (t.block.word a.parent.index) = a.lane.other.of (s.block.word a.parent.index)) ∧
    t.block.flagCells = s.block.flagCells ∧ SameSurroundings s t

/-- What SET_FLAGS and RESET leave unchanged: SET_FLAGS the whole bank; and both, by the model's choice (log entries 1, 3,
4), the parameters, the pending commands and the error record. -/
def Obligations.FrameSetFlagsReset : Prop :=
  ∀ (i : Instr) (s t : State), (i = .reset ∨ ∃ v, i = .setFlags v) → exec i s = .next t →
    (i ≠ .reset → t.block.bank = s.block.bank) ∧ SameSurroundings s t ∧ t.errorSeen = s.errorSeen

/-! ### The error -/

/-- R160 and R162: the one error is raised when, and only when, the command is SET or GET with code 13 or 22 to 31. -/
def Obligations.InvalidRegisterRaised : Prop :=
  ∀ (s : State) (cmd : CmdWord) (i : Instr), decode cmd = .ok i → ∃ t, exec i s = .next t ∧
    (t.response = .error .invalidRegister ↔
      (cmd.op = 2#3 ∨ cmd.op = 3#3) ∧ cmd.rid.toNat ∈ [13, 22, 23, 24, 25, 26, 27, 28, 29, 30, 31]) ∧
    (t.response.isError = true ↔ t.response = .error .invalidRegister)

/-- Entry of the error (spec/60_exceptions.md section 4, D9): SET and GET with an identifier that selects nothing, and no
other command, answer it with `rsp_err` 1 and no data, and leave the whole block as it was.
That `rsp_data` then has no value is log entry 8. -/
def Obligations.InvalidRegisterLeavesTheState : Prop :=
  (∀ (s : State) (r : RegId) (v : Word), r.select = none →
    (∃ t, exec (.set r v) s = .next t ∧ t.response = .error .invalidRegister ∧ t.block = s.block) ∧
    (∃ t, exec (.get r) s = .next t ∧ t.response = .error .invalidRegister ∧ t.block = s.block)) ∧
  (∀ (i : Instr) (s t : State), exec i s = .next t → t.response.rspErr = true →
    t.block = s.block ∧ t.response.rspData = none ∧ ∃ r, r.select = none ∧ (i = .get r ∨ ∃ v, i = .set r v))

/-- R166: the error is precise and nothing is latched. The failing command has no effect, a command after it runs as if
it had not been there; no response depends on earlier responses or errors. The last clause is no rule of the block: the
wrapper's record, the model's choice of log entry 3, is set by an error and by nothing else, and never cleared. -/
def Obligations.ErrorIsPreciseAndNotLatched : Prop :=
  (∀ (i : Instr) (s u : State), s.block = u.block → s.config = u.config → ∃ t t', exec i s = .next t ∧
    exec i u = .next t' ∧ t'.block = t.block ∧ t'.response = t.response) ∧
  (∀ (i j : Instr) (s t : State), Leads s i t → t.response.isError = true → t.block = s.block ∧
    ∃ u u', Leads t j u ∧ Leads s j u' ∧ u.block = u'.block ∧ u.response = u'.response) ∧
  (∀ (i : Instr) (s t : State), Leads s i t → t.errorSeen = (s.errorSeen || t.response.isError))

/-! ### The paths of the datapath -/

/-- R93: a GET with a valid code answers the read mux of the one word it selects, before the step; no other word and not
FLAGS has a part in it. -/
def Obligations.ReadPath : Prop :=
  (∀ (s : State) (cmd : CmdWord), cmd.op = 3#3 → (ridDecode cmd.rid).valid = true →
    ∃ (idx : Fin 13) (t : State), idx.val = (ridDecode cmd.rid).idx.toNat ∧ step (s.issue cmd) = .next t ∧
      t.response = .data (rdMux (s.block.word idx) (ridDecode cmd.rid).be)) ∧
  (∀ (r : RegId) (s u : State), (∀ j, touches r j → s.block.word j = u.block.word j) → ∃ t t',
    exec (.get r) s = .next t ∧ exec (.get r) u = .next t' ∧ t'.response = t.response)

/-- R95: a SET with a valid code writes the merge of the old word and `data`, both from before the step. -/
def Obligations.WritePath : Prop :=
  ∀ (s : State) (cmd : CmdWord), cmd.op = 2#3 → (ridDecode cmd.rid).valid = true →
    ∃ (idx : Fin 13) (t : State), idx.val = (ridDecode cmd.rid).idx.toNat ∧ step (s.issue cmd) = .next t ∧
      t.block.word idx = wrMerge (s.block.word idx) cmd.data (ridDecode cmd.rid).be

/-- R99 and R100: SET_FLAGS stores `data[14:0]` in the fifteen cells, dropping `data[15]`, so FLAGS is `stuck(data)`;
GET_FLAGS answers `stuck(FLAGS)`, which is bit 15 over the cells, before the step. -/
def Obligations.FlagsPaths : Prop :=
  (∀ (s : State) (cmd : CmdWord), cmd.op = 5#3 → ∃ t, step (s.issue cmd) = .next t ∧
    t.block.flagCells = cmd.data.extractLsb' 0 15 ∧ t.block.flags = stuck cmd.data ∧ t.block.bank = s.block.bank) ∧
  (∀ (s : State) (cmd : CmdWord), cmd.op = 4#3 → ∃ t, step (s.issue cmd) = .next t ∧
    t.response = .data (stuck s.block.flags) ∧ stuck s.block.flags = s.block.flagCells.setWidth 16 ||| 0x8000#16)

/-! ### The whole machine -/

/-- R17: a step changes a bank word only if its command is SET or RESET, FLAGS only if it is SET_FLAGS or RESET, and
nothing if it answers an error. -/
def Obligations.OnlyTheseCommandsWrite : Prop :=
  ∀ s t : State, step s = .next t → ∃ i, decode s.portWord = .ok i ∧
    ((∃ k, t.block.word k ≠ s.block.word k) → i = .reset ∨ ∃ r v, i = .set r v) ∧
    (t.block.flags ≠ s.block.flags → i = .reset ∨ ∃ v, i = .setFlags v) ∧
    (t.response.isError = true → t.block = s.block)

/-- Every step keeps the error record true to the response it gives, never clears it, keeps the parameters and consumes
at most the command it applies. -/
def Obligations.StepKeepsRecordTrue : Prop :=
  ∀ s t : State, s.recordTrue → step s = .next t →
    t.recordTrue ∧ (s.errorSeen = true → t.errorSeen = true) ∧
    (t.errorSeen = true → s.errorSeen = true ∨ t.response.isError = true) ∧
    t.config = s.config ∧ t.pending = s.pending.tail

/-- The record is true at reset. -/
def Obligations.ResetRecordTrue : Prop := State.reset.recordTrue

/-- R103: the response of each command as the port outputs give it, from the state before the step.
The refusal of op 6 and 7 is log entry 7, no value of an unspecified `rsp_data` log entry 8, the port functions log entry 11. -/
def Obligations.ResponseMux : Prop :=
  ∀ (s : State) (cmd : CmdWord),
    (cmd.op = 0#3 ∨ cmd.op = 1#3 ∨ cmd.op = 5#3 →
      portRspErr cmd.op cmd.rid = some false ∧ portRspData s.block cmd.op cmd.rid = none ∧
      ∃ t, step (s.issue cmd) = .next t ∧ t.response = .ok) ∧
    (cmd.op = 2#3 → (ridDecode cmd.rid).valid = true →
      portRspErr cmd.op cmd.rid = some false ∧ portRspData s.block cmd.op cmd.rid = none ∧
      ∃ t, step (s.issue cmd) = .next t ∧ t.response = .ok) ∧
    (cmd.op = 2#3 ∨ cmd.op = 3#3 → (ridDecode cmd.rid).valid = false →
      portRspErr cmd.op cmd.rid = some true ∧ portRspData s.block cmd.op cmd.rid = none ∧
      ∃ t, step (s.issue cmd) = .next t ∧ t.response = .error .invalidRegister) ∧
    (cmd.op = 3#3 → (ridDecode cmd.rid).valid = true → ∃ idx : Fin 13, idx.val = (ridDecode cmd.rid).idx.toNat ∧
      portRspErr cmd.op cmd.rid = some false ∧
      portRspData s.block cmd.op cmd.rid = some (rdMux (s.block.word idx) (ridDecode cmd.rid).be) ∧
      ∃ t, step (s.issue cmd) = .next t ∧ t.response = .data (rdMux (s.block.word idx) (ridDecode cmd.rid).be)) ∧
    (cmd.op = 4#3 → portRspErr cmd.op cmd.rid = some false ∧
      portRspData s.block cmd.op cmd.rid = some (stuck s.block.flags) ∧
      ∃ t, step (s.issue cmd) = .next t ∧ t.response = .data (stuck s.block.flags)) ∧
    (cmd.op = 6#3 ∨ cmd.op = 7#3 →
      portRspErr cmd.op cmd.rid = none ∧ portRspData s.block cmd.op cmd.rid = none ∧
      step (s.issue cmd) = .refused (.reservedOperation cmd.op))

/-- The port-level design, with its byte-lane write enables, refines the step: the same stored state after the clock edge
and the same outputs before it, for every command word that has a step.
The port functions are log entry 11, no value of an unspecified `rsp_data` log entry 8. -/
def Obligations.PortDesignRefinesStep : Prop :=
  ∀ (s : State) (cmd : CmdWord) (i : Instr), decode cmd = .ok i → ∃ t, exec i s = .next t ∧
    portClock s.config s.block cmd.op cmd.rid cmd.data = t.block ∧
    portRspErr cmd.op cmd.rid = some t.response.rspErr ∧
    portRspData s.block cmd.op cmd.rid = t.response.rspData

/-- The ordering model: after any list of well-formed commands, issued as words and run step by step from any state, every
lane and FLAGS hold what the latest command that wrote them wrote, and the reads answer so.
That the pending list is then empty and the parameters are kept is said of the model's own fields, its choice of log
entries 1 and 4. -/
def Obligations.RunFollowsOrderingModel : Prop :=
  ∀ (s : State) (cs : List Instr), (∀ i ∈ cs, i.wf = true) → s.pending = cs.map encode →
    ∃ t : State, Host.Core.run Sys2Proof.core cs.length s = .next t ∧ t.pending = [] ∧ t.config = s.config ∧
      (∀ w : WordReg, Responds t (.get (.word w))
        (.data (joinBytes (laneAfter s.config s.block w.index .high cs.reverse)
          (laneAfter s.config s.block w.index .low cs.reverse)))) ∧
      (∀ a : ByteReg, Responds t (.get (.byte a))
        (.data (zext16 (laneAfter s.config s.block a.parent.index a.lane cs.reverse)))) ∧
      Responds t .getFlags (.data (flagsAfter s.config s.block cs.reverse))

/-- An engine that keeps its contract is never stopped: any number of steps answers, and the contract still holds.
Steps past the end of the list are idle NOPs: R101's idle cycle, read of an empty list by log entry 1 (DEDUCED). -/
def Obligations.ContractRunNeverStops : Prop :=
  ∀ (n : Nat) (s : State), s.inContract →
    ∃ t : State, Host.Core.run Sys2Proof.core n s = .next t ∧ t.inContract

/-- A well-wired engine sees no error: any number of steps answers, the last of them with no error (and so each of them,
since the number is any). Idle steps after the list (log entry 1) count too, and nothing is added to the wrapper's record
(the model's choice, log entry 3). -/
def Obligations.WellWiredRunHasNoError : Prop :=
  ∀ (n : Nat) (s : State), s.wellWired →
    ∃ t : State, Host.Core.run Sys2Proof.core n s = .next t ∧ t.wellWired ∧
      (0 < n → t.response.isError = false) ∧ t.errorSeen = s.errorSeen

/-- Back-to-back commands need no idle step between them (spec/70_reset_and_hazards.md section 3). -/
def Obligations.NoHazards : Prop :=
  ∀ (s : State) (v b c : Word),
    (∀ r : WordReg, ThenResponds s (.set (.word r) v) (.get (.word r)) (.data v)) ∧
    (∀ a : ByteReg, ThenResponds s (.set (.byte a) b) (.get (.byte a)) (.data (zext16 (loByte b)))) ∧
    ThenResponds s (.set (.word .ax) v) (.get (.byte .al)) (.data (zext16 (loByte v))) ∧
    ThenResponds s (.set (.word .ax) v) (.get (.byte .ah)) (.data (zext16 (hiByte v))) ∧
    ThenResponds s (.set (.byte .al) b) (.get (.word .ax)) (.data (joinBytes (hiByte (s.block.word 0)) (loByte b))) ∧
    (∃ t, Leads s (.set (.byte .al) b) t ∧
      ThenResponds t (.set (.byte .ah) c) (.get (.word .ax)) (.data (joinBytes (loByte c) (loByte b)))) ∧
    ThenResponds s (.setFlags v) .getFlags (.data (v ||| 0x8000#16)) ∧
    (∀ i : Fin 13, ∀ w : WordReg, w.index = i → ThenResponds s .reset (.get (.word w)) (.data s.config.resetReg[i])) ∧
    (∀ i : Fin 13, ∀ a : ByteReg, a.parent.index = i →
      ThenResponds s .reset (.get (.byte a)) (.data (zext16 (a.lane.of s.config.resetReg[i])))) ∧
    ThenResponds s .reset .getFlags (.data (0x8000#16 ||| (s.config.flagsResetReserved &&& 0x702A#16))) ∧
    (∀ (i j : Instr) (t : State), Leads s i t → t.response.isError = true →
      ∃ u u', Leads t j u ∧ Leads s j u' ∧ u.block = u'.block ∧ u.response = u'.response)
end

