-- ==== Sys2Proof/Laws/Bits.lean ====
section
/-! SUPPORT. Bit-level facts: the fields of a command word, the lanes of a word, the cells of a flags value. -/

namespace Sys2Proof

/-! ### Fields of a command word -/

theorem CmdWord.op_make (op : BitVec 3) (rid : BitVec 5) (data : Word) :
    (CmdWord.make op rid data).op = op := by
  ext k hk
  simp only [CmdWord.make, CmdWord.op, BitVec.getElem_extractLsb', BitVec.getLsbD_or]
  interval_cases k <;> simp

theorem CmdWord.rid_make (op : BitVec 3) (rid : BitVec 5) (data : Word) :
    (CmdWord.make op rid data).rid = rid := by
  ext k hk
  simp only [CmdWord.make, CmdWord.rid, BitVec.getElem_extractLsb', BitVec.getLsbD_or]
  interval_cases k <;> simp

theorem CmdWord.data_make (op : BitVec 3) (rid : BitVec 5) (data : Word) :
    (CmdWord.make op rid data).data = data := by
  ext k hk
  simp only [CmdWord.make, CmdWord.data, BitVec.getElem_extractLsb', BitVec.getLsbD_or]
  interval_cases k <;> simp

namespace Machine

/-! ### Lanes of a word -/

theorem hiByte_joinBytes (hi lo : Byte) : hiByte (joinBytes hi lo) = hi := by
  ext k hk
  simp only [joinBytes, hiByte, BitVec.getElem_extractLsb', BitVec.getLsbD_or]
  interval_cases k <;> simp

theorem loByte_joinBytes (hi lo : Byte) : loByte (joinBytes hi lo) = lo := by
  ext k hk
  simp only [joinBytes, loByte, BitVec.getElem_extractLsb', BitVec.getLsbD_or]
  interval_cases k <;> simp

theorem joinBytes_eta (v : Word) : joinBytes (hiByte v) (loByte v) = v := by
  ext k hk
  simp only [joinBytes, hiByte, loByte, BitVec.getElem_or]
  interval_cases k <;> simp

theorem loByte_zext16 (b : Byte) : loByte (zext16 b) = b := by
  ext k hk
  simp only [zext16, loByte, BitVec.getElem_extractLsb']
  interval_cases k <;> simp

theorem Lane.of_joinBytes (l : Lane) (hi lo : Byte) :
    l.of (joinBytes hi lo) = match l with | .low => lo | .high => hi := by
  cases l
  · exact loByte_joinBytes hi lo
  · exact hiByte_joinBytes hi lo

/-- Two words agree when both lanes do. -/
theorem word_ext_lanes {v w : Word} (h : ∀ l : Lane, l.of v = l.of w) : v = w := by
  rw [← joinBytes_eta v, ← joinBytes_eta w]
  exact congrArg₂ joinBytes (h .high) (h .low)

/-! ### Cells of a flags value -/

theorem flagsOfCells_cellsOf (v : Word) : flagsOfCells (cellsOf v) = stuck v := by
  ext k hk
  simp only [flagsOfCells, cellsOf, stuck, stuckMask, BitVec.getElem_or]
  interval_cases k <;> simp

theorem cellsOf_flagsOfCells (cells : BitVec 15) : cellsOf (flagsOfCells cells) = cells := by
  ext k hk
  simp only [flagsOfCells, cellsOf, stuckMask, BitVec.getElem_extractLsb', BitVec.getLsbD_or]
  interval_cases k <;> simp

theorem cellsOf_stuck (v : Word) : cellsOf (stuck v) = cellsOf v := by
  ext k hk
  simp only [cellsOf, stuck, stuckMask, BitVec.getElem_extractLsb', BitVec.getLsbD_or]
  interval_cases k <;> simp

theorem stuck_flagsOfCells (cells : BitVec 15) : stuck (flagsOfCells cells) = flagsOfCells cells := by
  rw [← flagsOfCells_cellsOf, cellsOf_flagsOfCells]

end Machine

end Sys2Proof
end

