-- ==== Sys2Proof/Laws/State.lean ====
section
/-! SUPPORT. One lemma per field per update of the state and of the block, so that no proof unfolds a record update. -/

namespace Sys2Proof.Machine

variable (s : State) (b : Block) (r : Response) (cmd : CmdWord) (i : Fin 13) (v : Word)

@[simp] theorem State.answer_block : (s.answer b r).block = b := rfl
@[simp] theorem State.answer_config : (s.answer b r).config = s.config := rfl
@[simp] theorem State.answer_pending : (s.answer b r).pending = s.pending := rfl
@[simp] theorem State.answer_response : (s.answer b r).response = r := rfl
@[simp] theorem State.answer_errorSeen : (s.answer b r).errorSeen = (s.errorSeen || r.isError) := rfl

@[simp] theorem State.advance_block : s.advance.block = s.block := rfl
@[simp] theorem State.advance_config : s.advance.config = s.config := rfl
@[simp] theorem State.advance_pending : s.advance.pending = s.pending.tail := rfl
@[simp] theorem State.advance_response : s.advance.response = s.response := rfl
@[simp] theorem State.advance_errorSeen : s.advance.errorSeen = s.errorSeen := rfl

@[simp] theorem State.issue_block : (s.issue cmd).block = s.block := rfl
@[simp] theorem State.issue_config : (s.issue cmd).config = s.config := rfl
@[simp] theorem State.issue_pending : (s.issue cmd).pending = cmd :: s.pending := rfl
@[simp] theorem State.issue_response : (s.issue cmd).response = s.response := rfl
@[simp] theorem State.issue_errorSeen : (s.issue cmd).errorSeen = s.errorSeen := rfl

@[simp] theorem Block.setWord_flagCells : (b.setWord i v).flagCells = b.flagCells := rfl
@[simp] theorem Block.writeFlags_bank : (b.writeFlags v).bank = b.bank := rfl
@[simp] theorem Block.writeFlags_flagCells : (b.writeFlags v).flagCells = cellsOf (stuck v) := rfl
@[simp] theorem Block.ofReset_bank (cfg : Config) : (Block.ofReset cfg).bank = cfg.resetReg := rfl
@[simp] theorem Block.ofReset_flagCells (cfg : Config) :
    (Block.ofReset cfg).flagCells = cellsOf (resetFlags cfg) := rfl

@[simp] theorem Response.isError_ok : Response.ok.isError = false := rfl
@[simp] theorem Response.isError_data : (Response.data v).isError = false := rfl
@[simp] theorem Response.isError_error (e : ErrorKind) : (Response.error e).isError = true := rfl

end Sys2Proof.Machine
end

