-- ==== Sys2Proof/Laws/Ops.lean ====
section
/-! SUPPORT. One lemma per shared operation of Machine/Ops.lean and Machine/Operands.lean: what it does and what it leaves. -/

namespace Sys2Proof

namespace Machine

/-! ### Bank and FLAGS -/

theorem Block.word_setWord (b : Block) (i j : Fin 13) (v : Word) :
    (b.setWord i v).word j = if i = j then v else b.word j := by
  simp only [Block.setWord, Block.word, Fin.getElem_fin, Vector.getElem_set, Fin.ext_iff]

theorem Block.word_write (b : Block) (sel : Selection) (data : Word) (j : Fin 13) :
    (b.write sel data).word j = if sel.idx = j then wrMerge (b.word sel.idx) data sel.be else b.word j :=
  Block.word_setWord b sel.idx j _

theorem Block.flagCells_write (b : Block) (sel : Selection) (data : Word) :
    (b.write sel data).flagCells = b.flagCells := rfl

theorem Block.flags_write (b : Block) (sel : Selection) (data : Word) :
    (b.write sel data).flags = b.flags := rfl

theorem Block.word_writeFlags (b : Block) (data : Word) (j : Fin 13) :
    (b.writeFlags data).word j = b.word j := rfl

theorem Block.flags_writeFlags (b : Block) (data : Word) : (b.writeFlags data).flags = stuck data := by
  show flagsOfCells (cellsOf (stuck data)) = stuck data
  rw [cellsOf_stuck, flagsOfCells_cellsOf]

theorem Block.readFlags_eq (b : Block) : b.readFlags = b.flags := stuck_flagsOfCells b.flagCells

theorem Block.word_ofReset (cfg : Config) (i : Fin 13) : (Block.ofReset cfg).word i = cfg.resetReg[i] := rfl

/-- Two blocks are equal when every word and FLAGS are. -/
theorem Block.ext_words {b c : Block} (hw : ∀ i, b.word i = c.word i) (hf : b.flags = c.flags) : b = c := by
  obtain ⟨bank, cells⟩ := b
  obtain ⟨bank', cells'⟩ := c
  have h1 : bank = bank' := Vector.ext fun i hi => hw ⟨i, hi⟩
  have h2 : cells = cells' := by
    rw [← cellsOf_flagsOfCells cells, ← cellsOf_flagsOfCells cells']
    exact congrArg cellsOf hf
  rw [h1, h2]

/-! ### Mux and merge at the three byte enables that occur -/

theorem rdMux_both (v : Word) : rdMux v 0b11#2 = v := rfl

theorem rdMux_lane (v : Word) (l : Lane) : rdMux v l.enable = zext16 (l.of v) := by cases l <;> rfl

theorem wrMerge_both (old data : Word) : wrMerge old data 0b11#2 = data := rfl

theorem lane_wrMerge_lane (old data : Word) (k l : Lane) :
    l.of (wrMerge old data k.enable) = if k = l then loByte data else l.of old := by
  cases k <;> cases l <;> first | exact loByte_joinBytes _ _ | exact hiByte_joinBytes _ _

/-! ### Answering and raising -/

theorem finish_next (s : State) (b : Block) (r : Response) : finish s b r = .next (s.answer b r) := rfl

theorem raiseInvalidRegister_next (s : State) :
    raiseInvalidRegister s = .next (s.answer s.block (.error .invalidRegister)) := rfl

end Machine

open Machine

/-! ### Identifiers -/

/-- Either an identifier selects something, or it is the sentinel or beyond the enumeration. -/
theorem RegId.select_cases (r : RegId) :
    (∃ w, r = .word w ∧ r.select = some ⟨w.index, 0b11#2⟩) ∨
    (∃ a, r = .byte a ∧ r.select = some ⟨a.parent.index, a.lane.enable⟩) ∨
    ((r = .sentinel ∨ ∃ c, r = .beyond c) ∧ r.select = none) := by
  cases r with
  | word w => exact .inl ⟨w, rfl, rfl⟩
  | byte a => exact .inr (.inl ⟨a, rfl, rfl⟩)
  | sentinel => exact .inr (.inr ⟨.inl rfl, rfl⟩)
  | beyond c => exact .inr (.inr ⟨.inr ⟨c, rfl⟩, rfl⟩)

theorem RegId.ofCode_code {r : RegId} (h : r.wf = true) : RegId.ofCode r.code = r := by
  cases r with
  | word w => cases w <;> rfl
  | byte a => cases a <;> rfl
  | sentinel => rfl
  | beyond c =>
    have all : ∀ c : BitVec 5, 22 ≤ c.toNat → RegId.ofCode c = .beyond c := by decide
    exact all c (of_decide_eq_true h)

end Sys2Proof
end

