-- ==== Sys2Proof/Laws/Step.lean ====
section
/-! SUPPORT. What a command can do, said once: its next state is an answer, and only SET, SET_FLAGS and RESET change the block. -/

namespace Sys2Proof.Machine

/-- The block a command leaves. -/
def blockAfter (i : Instr) (s : State) : Block :=
  match i with
  | .nop => s.block
  | .reset => Block.ofReset s.config
  | .set r v => match r.select with | none => s.block | some sel => s.block.write sel v
  | .get _ => s.block
  | .getFlags => s.block
  | .setFlags v => s.block.writeFlags v

/-- The response of a command. -/
def responseOf (i : Instr) (s : State) : Response :=
  match i with
  | .nop => .ok
  | .reset => .ok
  | .set r _ => match r.select with | none => .error .invalidRegister | some _ => .ok
  | .get r => match r.select with | none => .error .invalidRegister | some sel => .data (s.block.read sel)
  | .getFlags => .data s.block.readFlags
  | .setFlags _ => .ok

theorem exec_eq (i : Instr) (s : State) : exec i s = .next (s.answer (blockAfter i s) (responseOf i s)) := by
  cases i with
  | nop => rfl
  | reset => rfl
  | set r v =>
    show execSet r v s = _
    rcases r.select_cases with ⟨w, rfl, h⟩ | ⟨a, rfl, h⟩ | ⟨-, h⟩ <;>
      simp only [execSet, blockAfter, responseOf, h, finish, raiseInvalidRegister]
  | get r =>
    show execGet r s = _
    rcases r.select_cases with ⟨w, rfl, h⟩ | ⟨a, rfl, h⟩ | ⟨-, h⟩ <;>
      simp only [execGet, blockAfter, responseOf, h, finish, raiseInvalidRegister]
  | getFlags => rfl
  | setFlags v => rfl

/-- A step that answers has decoded the word at the port and applied that command. -/
theorem step_cases {s t : State} (h : step s = .next t) :
    ∃ i, decode s.portWord = .ok i ∧ t = s.advance.answer (blockAfter i s.advance) (responseOf i s.advance) := by
  unfold step at h
  split at h
  · rename_i i hd
    rw [exec_eq] at h
    exact ⟨i, hd, (Host.Outcome.next.inj h).symm⟩
  · cases h

theorem step_of_decode {s : State} {i : Instr} (h : decode s.portWord = .ok i) : step s = exec i s.advance := by
  unfold step
  rw [h]

/-- What the engine issues next is what the step applies, on the state as it was. -/
theorem step_issue {cmd : CmdWord} {i : Instr} (s : State) (h : decode cmd = .ok i) : step (s.issue cmd) = exec i s :=
  step_of_decode (s := s.issue cmd) h

/-- A run of one step more. -/
theorem run_succ {s t : State} (n : Nat) (h : step s = .next t) :
    Host.Core.run core (n + 1) s = Host.Core.run core n t := by
  have h' : core.step s = .next t := h
  simp only [Host.Core.run, h']

/-- A property that every step answers and keeps is kept by every run. -/
theorem run_keeps {P : State → Prop} (keeps : ∀ s, P s → ∃ t, step s = .next t ∧ P t) :
    ∀ (n : Nat) (s : State), P s → ∃ t : State, Host.Core.run core n s = .next t ∧ P t := by
  intro n
  induction n with
  | zero => exact fun s h => ⟨s, rfl, h⟩
  | succ n ih =>
    intro s h
    obtain ⟨t, ht, hPt⟩ := keeps s h
    obtain ⟨u, hu, hPu⟩ := ih t hPt
    exact ⟨u, (run_succ n ht).trans hu, hPu⟩

end Sys2Proof.Machine
end

