-- ==== Sys2Proof/Laws/Assembly.lean ====
section
/-! SUPPORT. What a command followed by one that uses its data can do: the two cases of the conveniences of R75. -/

namespace Sys2Proof.Machine

/-- The first command answers data: the second runs on the state the first left. -/
theorem thenWithData_data {i : Instr} {s : State} {v : Word} (next : Word → Instr) (h : responseOf i s = .data v) :
    thenWithData (exec i s) next = exec (next v) (s.answer (blockAfter i s) (.data v)) := by
  rw [exec_eq, h]
  rfl

/-- The first command answers an error: it is all that runs. -/
theorem thenWithData_error {i : Instr} {s : State} {e : ErrorKind} (next : Word → Instr)
    (h : responseOf i s = .error e) :
    thenWithData (exec i s) next = .next (s.answer (blockAfter i s) (.error e)) := by
  rw [exec_eq, h]
  rfl

end Sys2Proof.Machine
end

