-- ==== Sys2Proof/Laws/Decode.lean ====
section
/-! SUPPORT. What the decoder can answer, said once, and the decoded identifiers. -/

namespace Sys2Proof

/-- The decoder by operation code: one of seven cases. -/
theorem decode_cases (c : CmdWord) :
    (c.op = 0#3 ∧ decode c = .ok .nop) ∨
    (c.op = 1#3 ∧ decode c = .ok .reset) ∨
    (c.op = 2#3 ∧ decode c = .ok (.set (RegId.ofCode c.rid) c.data)) ∨
    (c.op = 3#3 ∧ decode c = .ok (.get (RegId.ofCode c.rid))) ∨
    (c.op = 4#3 ∧ decode c = .ok .getFlags) ∨
    (c.op = 5#3 ∧ decode c = .ok (.setFlags c.data)) ∨
    ((c.op = 6#3 ∨ c.op = 7#3) ∧ decode c = .error (.reservedOperation c.op)) := by
  have all : ∀ o : BitVec 3, o = 0 ∨ o = 1 ∨ o = 2 ∨ o = 3 ∨ o = 4 ∨ o = 5 ∨ o = 6 ∨ o = 7 := by decide
  rcases all c.op with h | h | h | h | h | h | h | h <;> simp [decode, h]

theorem RegId.code_ofCode : ∀ c : BitVec 5, (RegId.ofCode c).code = c := by decide

theorem RegId.ofCode_wf : ∀ c : BitVec 5, (RegId.ofCode c).wf = true := by decide

end Sys2Proof
end

