-- ==== Sys2Proof/Laws/PerInstr.lean ====
section
/-! SUPPORT. A family of statements about every command as syntax: its canonical word lies in its row of
spec/opcode_table.json and splits into the fields of R60. -/

namespace Sys2Proof.Laws.TableRow

/-- `match` of the command's row in the opcode table. -/
def rowMatch : Instr → CmdWord
  | .nop => 0x000000#24
  | .reset => 0x200000#24
  | .set _ _ => 0x400000#24
  | .get _ => 0x600000#24
  | .getFlags => 0x800000#24
  | .setFlags _ => 0xA00000#24

/-- The canonical word of a command agrees with its row under the table's mask. -/
def Statement (i : Instr) : Prop := encode i &&& 0xE00000#24 = rowMatch i

/-- Under the table's mask only the operation code of a word is left. -/
theorem make_masked (op : BitVec 3) (rid : BitVec 5) (data : Word) :
    CmdWord.make op rid data &&& 0xE00000#24 = CmdWord.make op 0#5 0#16 := by
  ext k hk
  simp only [CmdWord.make, BitVec.getElem_and, BitVec.getElem_or]
  interval_cases k <;> simp

theorem nop : Statement .nop := (make_masked 0b000#3 0#5 0#16).trans (by decide)
theorem reset : Statement .reset := (make_masked 0b001#3 0#5 0#16).trans (by decide)
theorem set (r : RegId) (value : Word) : Statement (.set r value) :=
  (make_masked 0b010#3 r.code value).trans
    (show CmdWord.make 0b010#3 0#5 0#16 = 0x400000#24 by decide)
theorem get (r : RegId) : Statement (.get r) := (make_masked 0b011#3 r.code 0#16).trans
    (show CmdWord.make 0b011#3 0#5 0#16 = 0x600000#24 by decide)
theorem getFlags : Statement .getFlags := (make_masked 0b100#3 0#5 0#16).trans (by decide)
theorem setFlags (value : Word) : Statement (.setFlags value) :=
  (make_masked 0b101#3 0#5 value).trans
    (show CmdWord.make 0b101#3 0#5 0#16 = 0xA00000#24 by decide)

end Sys2Proof.Laws.TableRow
end

