-- ==== Sys2Proof/Tests/Slice0.lean ====
section
/-! SUPPORT. Tests of the model on the spec's own vectors, and a witness for the hypotheses of each statement. Expected values are
from spec/95_test_vectors.md, spec/30_encoding.md R62 to R74 and the worked examples of the command rules. -/

namespace Sys2Proof.Tests

open Sys2Proof Sys2Proof.Machine Sys2Proof.Claims

/-! ### Helpers -/

/-- The reset state with one bank word set. -/
def withWord (i : Fin 13) (v : Word) : State := { State.reset with block := State.reset.block.setWord i v }

/-- The reset state with other flags. -/
def withFlags (v : Word) : State := { State.reset with block := State.reset.block.writeFlags v }

/-- The reset state of an instance with other parameters. -/
def withParameters (cs : Word) (reserved : Word) : State :=
  { State.reset with
    config := { resetReg := Config.canonical.resetReg.set 10 cs, flagsResetReserved := reserved } }

/-- The engine's next word is `w`; the step answers a state with property `p`. -/
def stepGives (s : State) (w : CmdWord) (p : State → Bool) : Bool :=
  match step (s.issue w) with
  | .next t => p t
  | .fault _ => false
  | .refused _ => false

/-! ### Well-formedness: the one check -/

theorem test_wf_set_refuses_code_within : (Instr.set (.beyond 21#5) 0#16).wf = false := by decide
theorem test_wf_get_refuses_code_within : (Instr.get (.beyond 13#5)).wf = false := by decide
theorem test_wf_beyond_accepted : (Instr.get (.beyond 22#5)).wf = true ∧ (Instr.get (.beyond 31#5)).wf = true := by decide

/-! ### Decoding: words written out from R60, R62, R65, R66 (95_test_vectors.md sections 1 and 2.2) -/

theorem test_decode_nop : decode 0b000000000000000000000000#24 = .ok .nop ∧ decode 0x1FFFFF#24 = .ok .nop := by decide
theorem test_decode_reset : decode 0b001000000000000000000000#24 = .ok .reset ∧ decode 0x3ABCDE#24 = .ok .reset := by
  decide
theorem test_decode_set_word : decode 0b010000010000000011111111#24 = .ok (.set (.word .cx) 0x00FF#16) := by decide
theorem test_decode_set_alias : decode 0b010100110000000010101011#24 = .ok (.set (.byte .ch) 0x00AB#16) := by decide
theorem test_decode_set_invalid :
    decode 0x4D0000#24 = .ok (.set .sentinel 0#16) ∧ decode 0x5FFFFF#24 = .ok (.set (.beyond 31#5) 0xFFFF#16) := by decide
theorem test_decode_get : decode 0b011011000001001000110100#24 = .ok (.get (.word .ds)) := by decide
theorem test_decode_get_alias : decode 0b011011110000000000000000#24 = .ok (.get (.byte .cl)) := by decide
theorem test_decode_getFlags : decode 0b100000000000000000000000#24 = .ok .getFlags ∧ decode 0x9FFFFF#24 = .ok .getFlags := by
  decide
theorem test_decode_setFlags : decode 0b101111111111111111111111#24 = .ok (.setFlags 0xFFFF#16) := by decide
theorem test_decode_reserved :
    decode 0xC00000#24 = .error (.reservedOperation 6#3) ∧ decode 0xFFFFFF#24 = .error (.reservedOperation 7#3) := by
  decide

/-- The canonical words of R74, R120, R121, R141. -/
theorem test_encode :
    [Instr.nop, .reset, .set (.byte .ch) 0x00AB#16, .set .sentinel 0x0001#16, .get (.byte .cl), .get (.beyond 22#5),
      .getFlags, .setFlags 0x0001#16].map encode
    = [0x000000#24, 0x200000#24, 0x5300AB#24, 0x4D0001#24, 0x6F0000#24, 0x760000#24, 0x800000#24, 0xA00001#24] := by
  decide

/-- Words given as the opcode table numbers them, a canonical and a reserved one. -/
theorem test_decodeTableWord :
    decodeTableWord 24 0x4E00FF = some (.set (.byte .al) 0x00FF#16) ∧ decodeTableWord 24 0xE00000 = none := by decide

/-! ### The pure functions (95_test_vectors.md section 2.3) -/

theorem test_rdMux :
    rdMux 0xABCD#16 0b01#2 = 0x00CD#16 ∧ rdMux 0x80FF#16 0b10#2 = 0x0080#16 ∧ rdMux 0xABCD#16 0b00#2 = 0x0000#16 := by
  decide
theorem test_wrMerge :
    wrMerge 0x1234#16 0xABCD#16 0b01#2 = 0x12CD#16 ∧ wrMerge 0x1234#16 0xABCD#16 0b10#2 = 0xCD34#16 ∧
    wrMerge 0x0000#16 0xFF00#16 0b10#2 = 0x0000#16 := by decide
theorem test_stuck : stuck 0x7FFF#16 = 0xFFFF#16 ∧ stuck 0x0AD5#16 = 0x8AD5#16 := by decide

/-! ### One step of each command -/

/-- Section 2.4: RESET overrides what was written; `rid` and `data` are ignored. -/
theorem test_reset_overrides :
    stepGives (withWord 12 0xDD0D#16) 0x3FFFFF#24 (fun t => t.block == State.reset.block && t.response == .ok) = true := by
  decide
/-- Section 2.4: only the six reserved bits of the parameter are taken, and CS is configured. -/
theorem test_reset_parameters :
    stepGives (withParameters 0xFFFF#16 0xFFFF#16) 0x200000#24
      (fun t => t.block.word 10 == 0xFFFF#16 && t.block.word 8 == 0#16 && t.block.flags == 0xF02A#16) = true := by decide
/-- R111: NOP leaves CX. -/
theorem test_nop_keeps :
    stepGives (withWord 1 0xABFF#16) 0x000000#24 (fun t => t.block.word 1 == 0xABFF#16 && t.response == .ok) = true := by
  decide
/-- E7: the byte of an alias write comes from the low bits of the value and goes to the high lane. -/
theorem test_set_high_alias :
    stepGives (withWord 1 0x00FF#16) 0x5300AB#24 (fun t => t.block.word 1 == 0xABFF#16 && t.response == .ok) = true := by
  decide
/-- Section 2.7: `SET #22` writes no word at all. -/
theorem test_set_invalid :
    stepGives (withWord 3 0xBEEF#16) 0x562222#24
      (fun t => t.block == (withWord 3 0xBEEF#16).block && t.response == .error .invalidRegister && t.errorSeen) = true := by
  decide
/-- R121: a byte with its top bit set is zero-extended. -/
theorem test_get_high_alias :
    stepGives (withWord 0 0x8001#16) 0x720000#24 (fun t => t.response == .data 0x0080#16) = true := by decide
/-- Section 2.7: GET beyond the enumeration. -/
theorem test_get_invalid :
    stepGives State.reset 0x7F0000#24 (fun t => t.response == .error .invalidRegister) = true := by decide
/-- Section 2.8: GET_FLAGS with `rid` 13 is no error. -/
theorem test_getFlags_ignores_rid :
    stepGives (withFlags 0x0041#16) 0x8DFFFF#24 (fun t => t.response == .data 0x8041#16) = true := by decide
/-- Section 2.6: reserved bits are stored as given. -/
theorem test_setFlags_reserved_bits :
    stepGives State.reset 0xA0702A#24 (fun t => t.block.flags == 0xF02A#16 && t.response == .ok) = true := by decide
/-- Section 2.6: bit 15 alone. -/
theorem test_setFlags_stuck :
    stepGives (withFlags 0x7FFF#16) 0xA08000#24 (fun t => t.block.flags == 0x8000#16) = true := by decide
/-- Section 2.9: a reserved operation code has no step. -/
theorem test_reserved_refused : step (State.reset.issue 0xDFFFFF#24) = .refused (.reservedOperation 6#3) := rfl
/-- P2, steps 2 and 3: `SETF 0x0401` from FLAGS `0x8000` gives `0x8401`. -/
theorem test_setF :
    (match setF 0x0401#16 State.reset with | .next t => t.block.flags == 0x8401#16 | .fault _ => false | .refused _ => false)
      = true := by decide
/-- Section 2.5: the port-level design merges the high lane as the step does. -/
theorem test_port_merge :
    (portClock Config.canonical (withWord 1 0x00FF#16).block 2#3 19#5 0x00AB#16).word 1 = 0xABFF#16 := by decide

/-! ### Witnesses: for each statement with hypotheses, a state and operands that meet them -/

theorem witness_StepRunsDecodedCommand :
    (∃ (s : State) (rest : List CmdWord), s.pending = 0x401234#24 :: rest ∧
      decode 0x401234#24 = .ok (.set (.word .ax) 0x1234#16)) ∧ State.reset.pending = [] :=
  ⟨⟨State.reset.issue 0x401234#24, [], rfl, by decide⟩, rfl⟩

theorem witness_PlacedWordRunsNext : decodeTableWord 24 0x401234 = some (.set (.word .ax) 0x1234#16) := by decide

/-- One word for each clause, with a valid and an invalid identifier for SET and GET. -/
theorem witness_DecodeFollowsTheAlgorithm :
    CmdWord.op 0x000000#24 = 0#3 ∧ CmdWord.op 0x200000#24 = 1#3 ∧
    (CmdWord.op 0x4C0000#24 = 2#3 ∧ (ridDecode (CmdWord.rid 0x4C0000#24)).valid = true) ∧
    (CmdWord.op 0x4D0000#24 = 2#3 ∧ (ridDecode (CmdWord.rid 0x4D0000#24)).valid = false) ∧
    (CmdWord.op 0x750000#24 = 3#3 ∧ (ridDecode (CmdWord.rid 0x750000#24)).valid = true) ∧
    (CmdWord.op 0x760000#24 = 3#3 ∧ (ridDecode (CmdWord.rid 0x760000#24)).valid = false) ∧
    CmdWord.op 0x800000#24 = 4#3 ∧ CmdWord.op 0xA00000#24 = 5#3 ∧ CmdWord.op 0xC00000#24 = 6#3 ∧
    CmdWord.op 0xFFFFFF#24 = 7#3 := by decide

theorem witness_DecodeEncodeRoundTrip : (Instr.set (.beyond 22#5) 0xFFFF#16).wf = true ∧ (Instr.get (.byte .bh)).wf = true := by
  decide

theorem witness_EncodeDecodeIsCanonical :
    decode 0x6C1234#24 = .ok (.get (.word .ds)) ∧ decode 0xBFFFFF#24 = .ok (.setFlags 0xFFFF#16) := by decide

theorem witness_IdentifierCodes : (RegId.byte .bh).wf = true ∧ (RegId.beyond 22#5).wf = true ∧ 22 ≤ (22#5).toNat := by decide

/-- Both ends of each range of codes. -/
theorem witness_RidDecodeRanges :
    (0#5).toNat ≤ 12 ∧ (12#5).toNat ≤ 12 ∧ (13#5).toNat = 13 ∧ (14 ≤ (14#5).toNat ∧ (14#5).toNat ≤ 17) ∧
    (14 ≤ (17#5).toNat ∧ (17#5).toNat ≤ 17) ∧ (18 ≤ (18#5).toNat ∧ (18#5).toNat ≤ 21) ∧
    (18 ≤ (21#5).toNat ∧ (21#5).toNat ≤ 21) ∧ 22 ≤ (22#5).toNat ∧ 22 ≤ (31#5).toNat := by decide

theorem witness_ReservedOperationsRefused : (6#3 = 6#3 ∨ 6#3 = 7#3) ∧ (7#3 = 6#3 ∨ 7#3 = 7#3) := by decide

/-- The last numeral of each kind that assembles and the first that does not. -/
theorem witness_AssemblerWords :
    assemble (.set (.code 31) 0xFFFF) = some 0x5FFFFF#24 ∧ assemble (.setFlags 0x10000) = none ∧
    assemble (.get (.code 32)) = none ∧ (31 ≤ 31 ∧ 0xFFFF ≤ 0xFFFF) ∧ 0xFFFF < 0x10000 ∧ 31 < 32 := by decide

theorem witness_ConveniencesExpand :
    Responds (withWord 0 0x0B50#16) (.get (.byte .ah)) (.data 0x000B#16) ∧
    (∃ t, mov (.word .es) (.byte .ah) (withWord 0 0x0B50#16) = .next t ∧ t.block.word 9 = 0x000B#16) ∧
    Responds State.reset (.get (.beyond 22#5)) (.error .invalidRegister) :=
  ⟨⟨_, rfl, by decide⟩, ⟨_, rfl, by decide⟩, ⟨_, rfl, by decide⟩⟩

theorem witness_DatapathLaws : ∀ be ∈ [0b11#2, 0b01#2, 0b10#2], be = 0b11#2 ∨ be = 0b01#2 ∨ be = 0b10#2 := by decide

theorem witness_NopCommand : 0x1FFFFF#24 &&& 0xE00000#24 = 0x000000#24 := by decide

theorem witness_ResetCommand :
    0x3FFFFF#24 &&& 0xE00000#24 = 0x200000#24 ∧ (withWord 0 1#16).config = State.reset.config ∧
    State.reset.config = Config.canonical ∧ (∃ t, exec .reset (withWord 0 1#16) = .next t) ∧
    (∃ t, exec .reset State.reset = .next t) :=
  ⟨by decide, rfl, rfl, ⟨_, rfl⟩, ⟨_, rfl⟩⟩

theorem witness_ResetBankValues : (withWord 0 1#16).config.resetReg = Config.canonical.resetReg := rfl

theorem witness_ResetFlagsValue :
    (withFlags 0xFFFF#16).config.flagsResetReserved = 0x0000#16 ∧
    (withParameters 0#16 0xFFFF#16).config.flagsResetReserved ≠ 0x0000#16 := by decide

theorem witness_ResetStateIsAfterReset :
    (withWord 0 1#16).config = Config.canonical ∧ (withWord 0 1#16).pending = [] ∧ (withWord 0 1#16).errorSeen = false := by
  decide

/-- The codes at both ends of each clause of SET and GET. -/
theorem witness_SetCommand :
    (0#5).toNat = (0 : Fin 13).val ∧ (12#5).toNat = (12 : Fin 13).val ∧
    ((0 : Fin 13).val < 4 ∧ (14#5).toNat = 14 + (0 : Fin 13).val) ∧ ((3 : Fin 13).val < 4 ∧ (17#5).toNat = 14 + (3 : Fin 13).val) ∧
    ((0 : Fin 13).val < 4 ∧ (18#5).toNat = 18 + (0 : Fin 13).val) ∧ ((3 : Fin 13).val < 4 ∧ (21#5).toNat = 18 + (3 : Fin 13).val) ∧
    ((13#5).toNat = 13 ∨ 22 ≤ (13#5).toNat) ∧ ((22#5).toNat = 13 ∨ 22 ≤ (22#5).toNat) ∧
    ((31#5).toNat = 13 ∨ 22 ≤ (31#5).toNat) := by decide

theorem witness_GetCommand :
    (∃ t, exec (.get (.word .ds)) (withWord 12 7#16) = .next t ∧ t.response = .data 7#16) ∧
    (∃ t, exec (.get (.byte .bl)) (withWord 3 0x1234#16) = .next t ∧ t.response = .data 0x34#16) ∧
    (∃ t, exec (.get (.byte .bh)) (withWord 3 0x1234#16) = .next t ∧ t.response = .data 0x12#16) ∧
    (∃ t, exec (.get .sentinel) State.reset = .next t ∧ t.response = .error .invalidRegister) :=
  ⟨⟨_, rfl, by decide⟩, ⟨_, rfl, by decide⟩, ⟨_, rfl, by decide⟩, ⟨_, rfl, by decide⟩⟩

theorem witness_GetFlagsCommand :
    0x9FFFFF#24 &&& 0xE00000#24 = 0x800000#24 ∧ (Instr.set (.word .ax) 5#16) ≠ .reset ∧
    ∀ w, (Instr.set (.word .ax) 5#16) ≠ .setFlags w :=
  ⟨by decide, by decide, fun _ h => by cases h⟩

theorem witness_SetFlagsCommand : 0xBF0001#24 &&& 0xE00000#24 = 0xA00000#24 ∧ 0 < 15 ∧ 14 < 15 := by decide

theorem witness_RegisterAccessLaws :
    (WordReg.ax, ByteReg.al, ByteReg.ah) ∈ aliased ∧ (WordReg.bx, ByteReg.bl, ByteReg.bh) ∈ aliased ∧
    touches (.byte .al) 0 ∧ touches (.word .ds) 12 ∧ (0 : Fin 13) ≠ 12 ∧
    Responds (withWord 12 7#16) (.get (.word .ds)) (.data 7#16) ∧
    Responds (withWord 0 0x1234#16) (.get (.byte .al)) (.data 0x34#16) ∧
    Responds (withWord 0 0x1234#16) (.get (.byte .ah)) (.data 0x12#16) ∧
    ((13#5).toNat = 13 ∨ 22 ≤ (13#5).toNat) ∧ ((22#5).toNat = 13 ∨ 22 ≤ (22#5).toNat) :=
  ⟨by decide, by decide, ⟨_, rfl, rfl⟩, ⟨_, rfl, rfl⟩, by decide, ⟨_, rfl, by decide⟩, ⟨_, rfl, by decide⟩,
    ⟨_, rfl, by decide⟩, by decide, by decide⟩

theorem witness_FlagsAccessLaws :
    Responds (withFlags 0x0041#16) .getFlags (.data 0x8041#16) ∧ State.reset.config.flagsResetReserved = 0x0000#16 :=
  ⟨⟨_, rfl, by decide⟩, rfl⟩

theorem witness_AliasTable : (∃ sel, (RegId.byte .bh).select = some sel) ∧ ∃ sel, (RegId.word .ds).select = some sel :=
  ⟨⟨_, rfl⟩, ⟨_, rfl⟩⟩

theorem witness_AliasWriteInvariant : (12 : Fin 13) ≠ ByteReg.bh.parent.index := by decide

theorem witness_StateIndependence : ¬ touches (.word .ax) 1 ∧ ¬ touches .sentinel 0 :=
  ⟨fun ⟨_, h, e⟩ => by cases h; exact absurd e (by decide), fun ⟨_, h, _⟩ => by cases h⟩

theorem witness_StuckBitHardwired : Responds State.reset .getFlags (.data 0x8000#16) := ⟨_, rfl, by decide⟩

theorem witness_LegalFlagsValues : 0x8000#16 ≤ 0x8000#16 ∧ 0x8000#16 ≤ 0xFFFF#16 ∧ ¬ 0x8000#16 ≤ 0x7FFF#16 := by decide

theorem witness_FlagsHaveNoEffect :
    Instr.get (.word .ax) ≠ .getFlags ∧ Instr.get (.word .ax) ≠ .reset ∧
    (∀ v, Instr.get (.word .ax) ≠ .setFlags v) ∧ (Instr.setFlags 1#16 = .reset ∨ ∃ v, Instr.setFlags 1#16 = .setFlags v) :=
  ⟨by decide, by decide, fun _ h => (by cases h), .inr ⟨_, rfl⟩⟩

theorem witness_ResetIsDeterministic : (withWord 0 1#16).config = (withFlags 0x0041#16).config := rfl

theorem witness_MixedWidthAccess :
    (WordReg.cx, ByteReg.cl, ByteReg.ch) ∈ aliased ∧
    Responds (withWord 1 0x1234#16) (.get (.byte .ch)) (.data 0x12#16) ∧
    Responds (withWord 1 0x1234#16) (.get (.byte .cl)) (.data 0x34#16) :=
  ⟨by decide, ⟨_, rfl, by decide⟩, ⟨_, rfl, by decide⟩⟩

theorem witness_FrameNopGetGetFlags :
    (∃ t, exec .nop State.reset = .next t) ∧ (∃ t, exec (.get (.beyond 22#5)) State.reset = .next t) ∧
    (∃ t, exec (.get (.word .ax)) State.reset = .next t) ∧ ∃ t, exec .getFlags State.reset = .next t :=
  ⟨⟨_, rfl⟩, ⟨_, rfl⟩, ⟨_, rfl⟩, ⟨_, rfl⟩⟩

theorem witness_FrameSet :
    (∃ t, exec (.set (.byte .ah) 0xFF#16) State.reset = .next t) ∧ ¬ touches (.byte .ah) 12 ∧
    RegId.byte .ah = .byte .ah :=
  ⟨⟨_, rfl⟩, fun ⟨_, h, e⟩ => by cases h; exact absurd e (by decide), rfl⟩

theorem witness_FrameSetFlagsReset :
    (∃ t, exec (.setFlags 1#16) State.reset = .next t) ∧ (∃ t, exec .reset State.reset = .next t) ∧
    Instr.setFlags 1#16 ≠ .reset :=
  ⟨⟨_, rfl⟩, ⟨_, rfl⟩, by decide⟩

theorem witness_InvalidRegisterRaised :
    decode 0x4D0001#24 = .ok (.set .sentinel 0x0001#16) ∧ decode 0x7F0000#24 = .ok (.get (.beyond 31#5)) ∧
    decode 0x8D0000#24 = .ok .getFlags := by decide

theorem witness_InvalidRegisterLeavesTheState :
    RegId.sentinel.select = none ∧ (RegId.beyond 22#5).select = none ∧
    ∃ t, exec (.get .sentinel) (withWord 3 0xBEEF#16) = .next t ∧ t.response.rspErr = true :=
  ⟨rfl, rfl, ⟨_, rfl, by decide⟩⟩

theorem witness_ErrorIsPreciseAndNotLatched :
    ({ State.reset with errorSeen := true } : State).block = State.reset.block ∧
    ({ State.reset with errorSeen := true } : State).config = State.reset.config ∧
    ∃ t, Leads State.reset (.set (.beyond 31#5) 1#16) t ∧ t.response.isError = true :=
  ⟨rfl, rfl, ⟨_, rfl, by decide⟩⟩

theorem witness_ReadPath :
    CmdWord.op 0x750000#24 = 3#3 ∧ (ridDecode (CmdWord.rid 0x750000#24)).valid = true ∧
    ∀ j, touches (.word .ds) j → (withWord 0 1#16).block.word j = State.reset.block.word j := by
  refine ⟨by decide, by decide, ?_⟩
  rintro j ⟨_, h, rfl⟩
  cases h
  decide

theorem witness_WritePath : CmdWord.op 0x5500EE#24 = 2#3 ∧ (ridDecode (CmdWord.rid 0x5500EE#24)).valid = true := by decide

theorem witness_FlagsPaths : CmdWord.op 0xA00001#24 = 5#3 ∧ CmdWord.op 0x800000#24 = 4#3 := by decide

theorem witness_OnlyTheseCommandsWrite :
    (∃ t, step (State.reset.issue 0x4E0056#24) = .next t ∧ t.block.word 0 ≠ State.reset.block.word 0) ∧
    (∃ t, step (State.reset.issue 0xA00001#24) = .next t ∧ t.block.flags ≠ State.reset.block.flags) ∧
    ∃ t, step (State.reset.issue 0x6D0000#24) = .next t ∧ t.response.isError = true :=
  ⟨⟨_, rfl, by decide⟩, ⟨_, rfl, by decide⟩, ⟨_, rfl, by decide⟩⟩

theorem witness_StepKeepsRecordTrue :
    State.reset.recordTrue ∧ (∃ t, step (State.reset.issue 0x6D0000#24) = .next t ∧ t.errorSeen = true) ∧
    ({ State.reset with errorSeen := true } : State).errorSeen = true :=
  ⟨fun h => (by cases h), ⟨_, rfl, by decide⟩, rfl⟩

theorem witness_ResponseMux :
    CmdWord.op 0x000000#24 = 0#3 ∧ CmdWord.op 0x200000#24 = 1#3 ∧ CmdWord.op 0xA00000#24 = 5#3 ∧
    (CmdWord.op 0x400000#24 = 2#3 ∧ (ridDecode (CmdWord.rid 0x400000#24)).valid = true) ∧
    (CmdWord.op 0x560000#24 = 2#3 ∧ (ridDecode (CmdWord.rid 0x560000#24)).valid = false) ∧
    (CmdWord.op 0x6D0000#24 = 3#3 ∧ (ridDecode (CmdWord.rid 0x6D0000#24)).valid = false) ∧
    (CmdWord.op 0x6E0000#24 = 3#3 ∧ (ridDecode (CmdWord.rid 0x6E0000#24)).valid = true) ∧
    CmdWord.op 0x800000#24 = 4#3 ∧ CmdWord.op 0xC00000#24 = 6#3 ∧ CmdWord.op 0xE00000#24 = 7#3 := by decide

theorem witness_PortDesignRefinesStep : decode 0x5300AB#24 = .ok (.set (.byte .ch) 0x00AB#16) := by decide

theorem witness_RunFollowsOrderingModel :
    (∀ i ∈ [Instr.reset, .set (.word .cx) 0x00FF#16, .set (.byte .ch) 0x00AB#16], i.wf = true) ∧
    ({ State.reset with pending := [0x200000#24, 0x4100FF#24, 0x5300AB#24] } : State).pending
      = [Instr.reset, .set (.word .cx) 0x00FF#16, .set (.byte .ch) 0x00AB#16].map encode := by decide

theorem witness_ContractRunNeverStops : (State.reset.issue 0x4D0000#24).inContract := by
  intro cmd h
  obtain rfl : cmd = 0x4D0000#24 := List.mem_singleton.mp h
  decide

/-- An error already on record, and one step. -/
theorem witness_WellWiredRunHasNoError :
    ({ State.reset.issue 0x4E0056#24 with errorSeen := true } : State).wellWired ∧ 0 < 1 := by
  refine ⟨fun cmd h => ?_, by decide⟩
  obtain rfl : cmd = 0x4E0056#24 := List.mem_singleton.mp h
  decide

theorem witness_NoHazards :
    WordReg.ds.index = 12 ∧ ByteReg.bh.parent.index = 3 ∧ ∃ t, Leads State.reset (.get .sentinel) t ∧ t.response.isError = true :=
  ⟨rfl, rfl, ⟨_, rfl, by decide⟩⟩

end Sys2Proof.Tests
end

section
/-! PROOFS. What a command writes, read off `blockAfter` and `responseOf`: the inversion of the block, its words and its FLAGS. -/

namespace Sys2Proof.Machine

/-! ### SET at its two outcomes -/

theorem blockAfter_set_of_none {r : RegId} (h : r.select = none) (v : Word) (s : State) :
    blockAfter (.set r v) s = s.block := by
  simp only [blockAfter, h]

theorem blockAfter_set_of_some {r : RegId} {sel : Selection} (h : r.select = some sel) (v : Word) (s : State) :
    blockAfter (.set r v) s = s.block.write sel v := by
  simp only [blockAfter, h]

theorem responseOf_set_of_some {r : RegId} {sel : Selection} (h : r.select = some sel) (v : Word) (s : State) :
    responseOf (.set r v) s = .ok := by
  simp only [responseOf, h]

/-! ### What a command can do to the block -/

/-- Four cases: the block stays, RESET, SET through a valid identifier, SET_FLAGS. The last three answer `Ok` (R17). -/
theorem blockAfter_cases (i : Instr) (s : State) :
    blockAfter i s = s.block ∨
    (i = .reset ∧ blockAfter i s = Block.ofReset s.config ∧ responseOf i s = .ok) ∨
    (∃ r v sel, i = .set r v ∧ r.select = some sel ∧ blockAfter i s = s.block.write sel v ∧ responseOf i s = .ok) ∨
    (∃ v, i = .setFlags v ∧ blockAfter i s = s.block.writeFlags v ∧ responseOf i s = .ok) := by
  cases i with
  | nop => exact .inl rfl
  | reset => exact .inr (.inl ⟨rfl, rfl, rfl⟩)
  | set r v =>
    cases h : r.select with
    | none => exact .inl (blockAfter_set_of_none h v s)
    | some sel =>
      exact .inr (.inr (.inl ⟨r, v, sel, rfl, h, blockAfter_set_of_some h v s, responseOf_set_of_some h v s⟩))
  | get r => exact .inl rfl
  | getFlags => exact .inl rfl
  | setFlags v => exact .inr (.inr (.inr ⟨v, rfl, rfl, rfl⟩))

theorem reset_or_set_of_word_changed {i : Instr} {s : State} {k : Fin 13}
    (h : (blockAfter i s).word k ≠ s.block.word k) : i = .reset ∨ ∃ r v, i = .set r v := by
  rcases blockAfter_cases i s with hb | ⟨hi, -⟩ | ⟨r, v, -, hi, -⟩ | ⟨v, -, hb, -⟩
  · exact absurd (by rw [hb]) h
  · exact .inl hi
  · exact .inr ⟨r, v, hi⟩
  · exact absurd (by rw [hb, Block.word_writeFlags]) h

theorem reset_or_setFlags_of_flags_changed {i : Instr} {s : State}
    (h : (blockAfter i s).flags ≠ s.block.flags) : i = .reset ∨ ∃ v, i = .setFlags v := by
  rcases blockAfter_cases i s with hb | ⟨hi, -⟩ | ⟨r, v, sel, -, -, hb, -⟩ | ⟨v, hi, -⟩
  · exact absurd (by rw [hb]) h
  · exact .inl hi
  · exact absurd (by rw [hb, Block.flags_write]) h
  · exact .inr ⟨v, hi⟩

theorem blockAfter_of_isError {i : Instr} {s : State} (h : (responseOf i s).isError = true) :
    blockAfter i s = s.block := by
  rcases blockAfter_cases i s with hb | ⟨-, -, hr⟩ | ⟨-, -, -, -, -, -, hr⟩ | ⟨-, -, -, hr⟩
  · exact hb
  all_goals simp [hr] at h

/-! ### The stuck bit and the values of FLAGS -/

theorem getLsbD_stuck_of_lt (v : Word) {k : Nat} (hk : k < 15) : (stuck v).getLsbD k = v.getLsbD k := by
  simp only [stuck, stuckMask, BitVec.getLsbD_or]
  interval_cases k <;> simp

theorem getLsbD_stuck_last (v : Word) : (stuck v).getLsbD 15 = true := by
  simp [stuck, stuckMask]

/-- The values `stuck` leaves as they are: those with bit 15 equal to 1. -/
theorem stuck_eq_self_iff (v : Word) : stuck v = v ↔ v.getLsbD 15 = true := by
  constructor
  · intro h
    rw [← h, getLsbD_stuck_last]
  · intro h
    apply BitVec.eq_of_getLsbD_eq
    intro k hk
    rcases Nat.lt_succ_iff_lt_or_eq.mp hk with hlt | rfl
    · exact getLsbD_stuck_of_lt v hlt
    · rw [getLsbD_stuck_last, h]

theorem getLsbD_last_iff_le (v : Word) : v.getLsbD 15 = true ↔ 0x8000#16 ≤ v := by
  have hmsb : v.getLsbD 15 = decide (2 ^ 15 ≤ v.toNat) := BitVec.msb_eq_decide v
  rw [hmsb, decide_eq_true_iff, BitVec.le_def]
  rfl

theorem Block.exists_flags_eq_iff (v : Word) : (∃ b : Block, b.flags = v) ↔ stuck v = v := by
  constructor
  · rintro ⟨b, rfl⟩
    exact stuck_flagsOfCells b.flagCells
  · intro h
    exact ⟨⟨Config.canonical.resetReg, cellsOf v⟩, (flagsOfCells_cellsOf v).trans h⟩

theorem getLsbD_resetFlags_last (cfg : Config) : (resetFlags cfg).getLsbD 15 = true := by
  simp [resetFlags, stuckMask]

theorem Block.flags_ofReset (cfg : Config) : (Block.ofReset cfg).flags = resetFlags cfg :=
  (flagsOfCells_cellsOf _).trans ((stuck_eq_self_iff _).mpr (getLsbD_resetFlags_last cfg))

/-- The nine named flags lie below the stuck bit (R24). -/
theorem Flag.offset_lt (f : Flag) : f.offset < 15 := by
  cases f <;> decide

theorem Flag.isSetIn_stuck (f : Flag) (v : Word) : f.isSetIn (stuck v) = f.isSetIn v :=
  getLsbD_stuck_of_lt v f.offset_lt

/-! ### The same state with other FLAGS -/

/-- The state with other flag cells, all else as it was: what R27 compares a state with. -/
def State.withFlagCells (s : State) (cells : BitVec 15) : State :=
  { s with block := { s.block with flagCells := cells } }

theorem bank_blockAfter_withFlagCells (i : Instr) (s : State) (cells : BitVec 15) :
    (blockAfter i (s.withFlagCells cells)).bank = (blockAfter i s).bank := by
  cases i with
  | set r v =>
    cases h : r.select with
    | none => simp only [blockAfter_set_of_none h, State.withFlagCells]
    | some sel =>
      simp only [blockAfter_set_of_some h]
      rfl
  | nop | reset | get | getFlags | setFlags => rfl

theorem responseOf_withFlagCells {i : Instr} (h : i ≠ .getFlags) (s : State) (cells : BitVec 15) :
    responseOf i (s.withFlagCells cells) = responseOf i s := by
  cases i with
  | getFlags => exact absurd rfl h
  | nop | reset | set | get | setFlags => rfl

theorem flags_blockAfter_withFlagCells {i : Instr} (h : i = .reset ∨ ∃ v, i = .setFlags v) (s : State)
    (cells : BitVec 15) : (blockAfter i (s.withFlagCells cells)).flags = (blockAfter i s).flags := by
  rcases h with rfl | ⟨v, rfl⟩
  · rfl
  · simp only [blockAfter, Block.flags_writeFlags]

end Sys2Proof.Machine

namespace Sys2Proof.Claims

open Sys2Proof.Machine

/-! ### The notation of the statements -/

theorem responds_iff {s : State} {i : Instr} {r : Response} : Responds s i r ↔ responseOf i s = r := by
  constructor
  · rintro ⟨t, hlead, rfl⟩
    rw [← Host.Outcome.next.inj ((exec_eq i s).symm.trans hlead), State.answer_response]
  · rintro rfl
    exact ⟨_, exec_eq i s, rfl⟩

theorem responds_getFlags (s : State) : Responds s .getFlags (.data s.block.flags) :=
  responds_iff.mpr (congrArg Response.data s.block.readFlags_eq)

/-- GET_FLAGS in the state that `exec_eq` gives for SET_FLAGS. -/
theorem responds_getFlags_after_setFlags (s : State) (v : Word) :
    Responds (s.answer (blockAfter (.setFlags v) s) (responseOf (.setFlags v) s)) .getFlags (.data (stuck v)) :=
  s.block.flags_writeFlags v ▸ responds_getFlags _

theorem word_blockAfter_set_of_not_touches {r : RegId} {j : Fin 13} (h : ¬ touches r j) (v : Word) (s : State) :
    (blockAfter (.set r v) s).word j = s.block.word j := by
  cases hsel : r.select with
  | none => rw [blockAfter_set_of_none hsel]
  | some sel =>
    have hne : sel.idx ≠ j := fun heq => h ⟨sel, hsel, heq⟩
    rw [blockAfter_set_of_some hsel, Block.word_write, if_neg hne]

theorem flags_blockAfter_set (r : RegId) (v : Word) (s : State) :
    (blockAfter (.set r v) s).flags = s.block.flags := by
  by_contra hne
  simpa using reset_or_setFlags_of_flags_changed hne

end Sys2Proof.Claims
end

section
/-! PROOFS. The statements about the state: what writes it (R16, R17), its FLAGS (R27, R28) and RESET (R33). -/

namespace Sys2Proof.Proofs

open Sys2Proof.Machine Sys2Proof.Claims

/-- Settles O51: the step applies the decoded command, and `blockAfter_cases` says what that can write. -/
theorem onlyTheseCommandsWrite : Obligations.OnlyTheseCommandsWrite := by
  unfold Obligations.OnlyTheseCommandsWrite
  intro s t hstep
  obtain ⟨i, hdecode, rfl⟩ := step_cases hstep
  refine ⟨i, hdecode, ?_, ?_, ?_⟩
  · rintro ⟨k, hword⟩
    exact reset_or_set_of_word_changed hword
  · exact fun hflags => reset_or_setFlags_of_flags_changed hflags
  · exact fun herror => blockAfter_of_isError herror

/-- Settles O34: SET writes at most the word its identifier selects, SET_FLAGS only the flag cells. -/
theorem stateIndependence : Obligations.StateIndependence := by
  unfold Obligations.StateIndependence
  intro s r v
  refine ⟨⟨_, exec_eq _ s, flags_blockAfter_set r v s, fun j hj => ?_⟩, ⟨_, exec_eq _ s, fun j => ?_⟩⟩
  · exact word_blockAfter_set_of_not_touches hj v s
  · exact Block.word_writeFlags s.block v j

/-- Settles O36: a value is legal exactly when `stuck` leaves it as it is, and GET_FLAGS answers `stuck` of what was given. -/
theorem legalFlagsValues : Obligations.LegalFlagsValues := by
  unfold Obligations.LegalFlagsValues
  refine ⟨fun v => ?_, fun s v => ?_⟩
  · rw [Block.exists_flags_eq_iff, stuck_eq_self_iff, getLsbD_last_iff_le]
  · exact ⟨_, stuck v, exec_eq _ s, responds_getFlags_after_setFlags s v, fun k hk => getLsbD_stuck_of_lt v hk,
      getLsbD_stuck_last v⟩

/-- Settles O37: no named flag is the stuck bit, and only GET_FLAGS reads the flag cells. -/
theorem flagsHaveNoEffect : Obligations.FlagsHaveNoEffect := by
  unfold Obligations.FlagsHaveNoEffect
  refine ⟨fun s v f => ?_, fun i s cells => ?_⟩
  · exact ⟨_, stuck v, exec_eq _ s, responds_getFlags_after_setFlags s v, f.isSetIn_stuck v⟩
  · refine ⟨_, _, exec_eq i s, exec_eq i (s.withFlagCells cells), bank_blockAfter_withFlagCells i s cells,
      fun hi => responseOf_withFlagCells hi s cells, fun hreset hset => ?_,
      fun hi => flags_blockAfter_withFlagCells hi s cells⟩
    by_contra hne
    rcases reset_or_setFlags_of_flags_changed hne with hi | ⟨v, hi⟩
    · exact hreset hi
    · exact hset v hi

/-- Settles O39: RESET leaves `Block.ofReset` of the parameters, which no command changes. -/
theorem resetIsDeterministic : Obligations.ResetIsDeterministic := by
  unfold Obligations.ResetIsDeterministic
  intro s s' hconfig
  refine ⟨_, _, _, exec_eq _ s, exec_eq _ s', exec_eq _ _, congrArg Block.ofReset hconfig, rfl, rfl, fun w => ?_, ?_,
    getLsbD_resetFlags_last s.config⟩
  · exact responds_iff.mpr rfl
  · exact Block.flags_ofReset s.config ▸ responds_getFlags _

end Sys2Proof.Proofs
end

section
/-! PROOFS. The datapath between a command word and the block: the read mux as a mask and a shift, what a word decodes to by
its operation code, what an identifier code selects, and what a GET answers. -/

namespace Sys2Proof

/-! ### A command word by its operation code -/

theorem decode_of_op_set {c : CmdWord} (h : c.op = 2#3) : decode c = .ok (.set (RegId.ofCode c.rid) c.data) := by
  simpa [h] using decode_cases c

theorem decode_of_op_get {c : CmdWord} (h : c.op = 3#3) : decode c = .ok (.get (RegId.ofCode c.rid)) := by
  simpa [h] using decode_cases c

theorem decode_of_op_getFlags {c : CmdWord} (h : c.op = 4#3) : decode c = .ok .getFlags := by
  simpa [h] using decode_cases c

theorem decode_of_op_setFlags {c : CmdWord} (h : c.op = 5#3) : decode c = .ok (.setFlags c.data) := by
  simpa [h] using decode_cases c

namespace Machine

/-! ### The two identifier decoders -/

/-- The select of a decoded identifier is `ridDecode` of its code, index and byte enables alike (R67). -/
theorem select_ofCode_map : ∀ code : BitVec 5,
    (RegId.ofCode code).select.map (fun sel => (sel.idx.val, sel.be)) =
      if (ridDecode code).valid then some ((ridDecode code).idx.toNat, (ridDecode code).be) else none := by
  decide

theorem exists_select_ofCode_of_valid {code : BitVec 5} (h : (ridDecode code).valid = true) :
    ∃ sel, (RegId.ofCode code).select = some sel ∧ sel.idx.val = (ridDecode code).idx.toNat ∧
      sel.be = (ridDecode code).be := by
  have hmap := select_ofCode_map code
  rw [if_pos h, Option.map_eq_some_iff] at hmap
  obtain ⟨sel, hsel, hfields⟩ := hmap
  exact ⟨sel, hsel, congrArg Prod.fst hfields, congrArg Prod.snd hfields⟩

/-! ### The step and GET -/

theorem step_issue_eq {cmd : CmdWord} {i : Instr} (s : State) (h : decode cmd = .ok i) :
    step (s.issue cmd) = .next (s.answer (blockAfter i s) (responseOf i s)) :=
  (step_issue s h).trans (exec_eq i s)

theorem responseOf_get_of_none {r : RegId} (h : r.select = none) (s : State) :
    responseOf (.get r) s = .error .invalidRegister := by
  simp only [responseOf, h]

theorem responseOf_get_of_some {r : RegId} {sel : Selection} (h : r.select = some sel) (s : State) :
    responseOf (.get r) s = .data (rdMux (s.block.word sel.idx) sel.be) := by
  simp only [responseOf, h, Block.read]

/-! ### Byte reads and `stuck` in the bit forms of the spec -/

theorem zext16_loByte (v : Word) : zext16 (loByte v) = v &&& 0x00FF#16 := by
  ext k hk
  simp only [zext16, loByte, BitVec.getElem_and]
  interval_cases k <;> simp

theorem zext16_hiByte (v : Word) : zext16 (hiByte v) = v >>> 8 := by
  ext k hk
  simp only [zext16, hiByte, BitVec.getElem_ushiftRight]
  interval_cases k <;> simp

theorem Block.stuck_flags (b : Block) : stuck b.flags = b.flagCells.setWidth 16 ||| 0x8000#16 :=
  (stuck_flagsOfCells b.flagCells).trans (BitVec.or_comm _ _)

end Machine

namespace Claims

open Sys2Proof.Machine

/-- A GET reads at most the word its identifier touches (R93). -/
theorem responseOf_get_congr {r : RegId} {s u : State}
    (h : ∀ j, touches r j → s.block.word j = u.block.word j) : responseOf (.get r) u = responseOf (.get r) s := by
  cases hsel : r.select with
  | none => rw [responseOf_get_of_none hsel, responseOf_get_of_none hsel]
  | some sel => rw [responseOf_get_of_some hsel, responseOf_get_of_some hsel, h sel.idx ⟨sel, hsel, rfl⟩]

end Claims

end Sys2Proof
end

section
/-! PROOFS. The statements about the datapath: the read mux (R92), the stuck bit (R98), the read and write paths (R93, R95) and
the flags paths (R99, R100). -/

namespace Sys2Proof.Proofs

open Sys2Proof.Machine Sys2Proof.Claims

/-- Settles O17: `stuck` sets bit 15 and no other. -/
theorem stuckFunction : Obligations.StuckFunction := by
  unfold Obligations.StuckFunction
  exact fun v => ⟨rfl, getLsbD_stuck_last v, fun k hk => getLsbD_stuck_of_lt v hk⟩

/-- Settles O15: the low byte of a word is its mask, the high byte its shift. -/
theorem readMux : Obligations.ReadMux := by
  unfold Obligations.ReadMux
  exact fun word => ⟨rdMux_both word, rdMux_lane word .low, zext16_loByte word, rdMux_lane word .high,
    zext16_hiByte word, rfl⟩

/-- Settles O48: the identifier selects what `ridDecode` says, and GET reads that word alone. -/
theorem readPath : Obligations.ReadPath := by
  unfold Obligations.ReadPath
  refine ⟨fun s cmd hop hvalid => ?_, fun r s u hagree => ?_⟩
  · obtain ⟨sel, hsel, hidx, hbe⟩ := exists_select_ofCode_of_valid hvalid
    refine ⟨sel.idx, _, hidx, step_issue_eq s (decode_of_op_get hop), ?_⟩
    rw [State.answer_response, responseOf_get_of_some hsel, hbe]
  · exact ⟨_, _, exec_eq _ s, exec_eq _ u, responseOf_get_congr hagree⟩

/-- Settles O49: the identifier selects what `ridDecode` says, and SET writes the merge there. -/
theorem writePath : Obligations.WritePath := by
  unfold Obligations.WritePath
  intro s cmd hop hvalid
  obtain ⟨sel, hsel, hidx, hbe⟩ := exists_select_ofCode_of_valid hvalid
  refine ⟨sel.idx, _, hidx, step_issue_eq s (decode_of_op_set hop), ?_⟩
  rw [State.answer_block, blockAfter_set_of_some hsel, Block.word_write, if_pos rfl, hbe]

/-- Settles O50: the cells drop the bit that `stuck` sets, and reading puts it back. -/
theorem flagsPaths : Obligations.FlagsPaths := by
  unfold Obligations.FlagsPaths
  refine ⟨fun s cmd hop => ?_, fun s cmd hop => ?_⟩
  · exact ⟨_, step_issue_eq s (decode_of_op_setFlags hop), cellsOf_stuck cmd.data,
      s.block.flags_writeFlags cmd.data, s.block.writeFlags_bank cmd.data⟩
  · exact ⟨_, step_issue_eq s (decode_of_op_getFlags hop), rfl, s.block.stuck_flags⟩

end Sys2Proof.Proofs
end

section
/-! PROOFS. When a command answers InvalidRegister: SET and GET through an identifier that selects nothing, and the codes
of these identifiers (R160, R162). -/

namespace Sys2Proof.Machine

/-- There is one error, so an error response is that one (R160). -/
theorem Response.isError_iff (r : Response) : r.isError = true ↔ r = .error .invalidRegister := by
  cases r with
  | ok => simp
  | data v => simp
  | error e => cases e; simp

/-! ### SET and GET -/

theorem responseOf_set_of_none {r : RegId} (h : r.select = none) (v : Word) (s : State) :
    responseOf (.set r v) s = .error .invalidRegister := by
  simp only [responseOf, h]

theorem responseOf_set_eq_error_iff (r : RegId) (v : Word) (s : State) :
    responseOf (.set r v) s = .error .invalidRegister ↔ r.select = none := by
  cases h : r.select with
  | none => simp [responseOf_set_of_none h]
  | some sel => simp [responseOf_set_of_some h]

theorem responseOf_get_eq_error_iff (r : RegId) (s : State) :
    responseOf (.get r) s = .error .invalidRegister ↔ r.select = none := by
  cases h : r.select with
  | none => simp [responseOf_get_of_none h]
  | some sel => simp [responseOf_get_of_some h]

/-! ### A decoded word -/

/-- In the order of `decode_cases`: NOP, RESET, SET, GET, GET_FLAGS, SET_FLAGS; a reserved operation does not decode. -/
theorem responseOf_eq_error_iff_of_decode {cmd : CmdWord} {i : Instr} (h : decode cmd = .ok i) (s : State) :
    responseOf i s = .error .invalidRegister ↔
      (cmd.op = 2#3 ∨ cmd.op = 3#3) ∧ (RegId.ofCode cmd.rid).select = none := by
  rcases decode_cases cmd with ⟨hop, hd⟩ | ⟨hop, hd⟩ | ⟨hop, hd⟩ | ⟨hop, hd⟩ | ⟨hop, hd⟩ | ⟨hop, hd⟩ | ⟨-, hd⟩ <;>
    cases h.symm.trans hd
  · simp [hop, responseOf]
  · simp [hop, responseOf]
  · simp [hop, responseOf_set_eq_error_iff]
  · simp [hop, responseOf_get_eq_error_iff]
  · simp [hop, responseOf]
  · simp [hop, responseOf]

theorem select_ofCode_eq_none_iff : ∀ code : BitVec 5, (RegId.ofCode code).select = none ↔
    code.toNat ∈ [13, 22, 23, 24, 25, 26, 27, 28, 29, 30, 31] := by
  decide

end Sys2Proof.Machine
end

section
/-! PROOFS. The statement about the exception InvalidRegister (R160, R162). -/

namespace Sys2Proof.Proofs

open Sys2Proof.Machine Sys2Proof.Claims

/-- Settles O45: the decoded command errs when its identifier selects nothing, as 13 and 22 to 31 do. -/
theorem invalidRegisterRaised : Obligations.InvalidRegisterRaised := by
  unfold Obligations.InvalidRegisterRaised
  intro s cmd i hdecode
  refine ⟨_, exec_eq i s, ?_, Response.isError_iff _⟩
  rw [State.answer_response, responseOf_eq_error_iff_of_decode hdecode, select_ofCode_eq_none_iff]

end Sys2Proof.Proofs
end

section
/-! PROOFS. The command word and its encoding: the word is its fields, what a word decodes to by its operation code, and what
the decoder answers for an encoded command. -/

namespace Sys2Proof

/-! ### A word and its fields -/

theorem CmdWord.make_fields (c : CmdWord) : CmdWord.make c.op c.rid c.data = c := by
  ext k hk
  simp only [CmdWord.make, CmdWord.op, CmdWord.rid, CmdWord.data, BitVec.getElem_or]
  interval_cases k <;> simp

/-- The word as R74 writes it: the operation's own bits and the shifted fields. -/
theorem CmdWord.make_eq_or {op : BitVec 3} {bits : CmdWord} (h : op.setWidth 24 <<< 21 = bits) (rid : BitVec 5)
    (data : Word) : CmdWord.make op rid data = bits ||| (rid.setWidth 24 <<< 16) ||| data.setWidth 24 := by
  rw [CmdWord.make, h]

/-- Under the mask of `op` two words agree only when their operation codes do (spec/opcode_table.json). -/
theorem CmdWord.op_of_masked {c : CmdWord} {op : BitVec 3} (h : c &&& 0xE00000#24 = CmdWord.make op 0#5 0#16) :
    c.op = op := by
  have hc : c &&& 0xE00000#24 = CmdWord.make c.op 0#5 0#16 := by
    have hmask := Laws.TableRow.make_masked c.op c.rid c.data
    rwa [c.make_fields] at hmask
  have hop := congrArg CmdWord.op (hc.symm.trans h)
  rwa [CmdWord.op_make, CmdWord.op_make] at hop

/-! ### The remaining operation codes -/

theorem decode_of_op_nop {c : CmdWord} (h : c.op = 0#3) : decode c = .ok .nop := by
  simpa [h] using decode_cases c

theorem decode_of_op_reset {c : CmdWord} (h : c.op = 1#3) : decode c = .ok .reset := by
  simpa [h] using decode_cases c

theorem decode_of_op_reserved {c : CmdWord} (h : c.op = 6#3 ∨ c.op = 7#3) :
    decode c = .error (.reservedOperation c.op) := by
  rcases h with h | h <;> simpa [h] using decode_cases c

/-- A word that decodes has one of the six defined operation codes, and its command is that code's. -/
theorem decode_ok_cases {c : CmdWord} {i : Instr} (h : decode c = .ok i) :
    (c.op = 0#3 ∧ i = .nop) ∨
    (c.op = 1#3 ∧ i = .reset) ∨
    (c.op = 2#3 ∧ i = .set (RegId.ofCode c.rid) c.data) ∨
    (c.op = 3#3 ∧ i = .get (RegId.ofCode c.rid)) ∨
    (c.op = 4#3 ∧ i = .getFlags) ∨
    (c.op = 5#3 ∧ i = .setFlags c.data) := by
  simpa [h] using decode_cases c

/-! ### A word made of given fields -/

section
variable (rid : BitVec 5) (data : Word)

theorem decode_make_nop : decode (CmdWord.make 0#3 rid data) = .ok .nop :=
  decode_of_op_nop (CmdWord.op_make _ _ _)

theorem decode_make_reset : decode (CmdWord.make 1#3 rid data) = .ok .reset :=
  decode_of_op_reset (CmdWord.op_make _ _ _)

theorem decode_make_set : decode (CmdWord.make 2#3 rid data) = .ok (.set (RegId.ofCode rid) data) := by
  rw [decode_of_op_set (CmdWord.op_make _ _ _), CmdWord.rid_make, CmdWord.data_make]

theorem decode_make_get : decode (CmdWord.make 3#3 rid data) = .ok (.get (RegId.ofCode rid)) := by
  rw [decode_of_op_get (CmdWord.op_make _ _ _), CmdWord.rid_make]

theorem decode_make_getFlags : decode (CmdWord.make 4#3 rid data) = .ok .getFlags :=
  decode_of_op_getFlags (CmdWord.op_make _ _ _)

theorem decode_make_setFlags : decode (CmdWord.make 5#3 rid data) = .ok (.setFlags data) := by
  rw [decode_of_op_setFlags (CmdWord.op_make _ _ _), CmdWord.data_make]

end

theorem decode_encode {i : Instr} (h : i.wf = true) : decode (encode i) = .ok i := by
  cases i with
  | nop => exact decode_make_nop 0#5 0#16
  | reset => exact decode_make_reset 0#5 0#16
  | set r v => exact (decode_make_set r.code v).trans (by rw [RegId.ofCode_code h])
  | get r => exact (decode_make_get r.code 0#16).trans (by rw [RegId.ofCode_code h])
  | getFlags => exact decode_make_getFlags 0#5 0#16
  | setFlags v => exact decode_make_setFlags 0#5 v

/-! ### Identifiers -/

theorem Machine.select_ofCode_of_invalid {code : BitVec 5} (h : (Machine.ridDecode code).valid = false) :
    (RegId.ofCode code).select = none := by
  have hmap := Machine.select_ofCode_map code
  rwa [h, if_neg Bool.false_ne_true, Option.map_eq_none_iff] at hmap

end Sys2Proof
end

section
/-! PROOFS. The statements about the encoding (R60, R63, R65 to R67, R76). -/

namespace Sys2Proof.Proofs

open Sys2Proof.Machine Sys2Proof.Claims

/-- Settles O6: each field of the canonical word is the one `encode` put there, and a well-formed identifier is that of
its code. -/
theorem decodeEncodeRoundTrip : Obligations.DecodeEncodeRoundTrip := by
  unfold Obligations.DecodeEncodeRoundTrip
  exact fun i hwf => decode_encode hwf

/-- Settles O4: the fields do not overlap and cover the word. -/
theorem fieldsMakeTheWord : Obligations.FieldsMakeTheWord := by
  unfold Obligations.FieldsMakeTheWord
  refine ⟨fun op rid data => ?_, fun cmd => ?_⟩
  · exact ⟨rfl, CmdWord.op_make op rid data, CmdWord.rid_make op rid data, CmdWord.data_make op rid data⟩
  · exact ⟨cmd.make_fields.symm, rfl, rfl, rfl⟩

/-- Settles O5: the decoder by operation code, and `ridDecode` on the identifier of SET and GET. -/
theorem decodeFollowsTheAlgorithm : Obligations.DecodeFollowsTheAlgorithm := by
  unfold Obligations.DecodeFollowsTheAlgorithm
  intro cmd
  refine ⟨decode_of_op_nop, decode_of_op_reset, fun hop => ?_, fun hop => ?_, decode_of_op_getFlags,
    decode_of_op_setFlags, decode_of_op_reserved⟩
  · exact ⟨_, decode_of_op_set hop, RegId.code_ofCode _, exists_select_ofCode_of_valid, select_ofCode_of_invalid⟩
  · exact ⟨_, decode_of_op_get hop, RegId.code_ofCode _, exists_select_ofCode_of_valid, select_ofCode_of_invalid⟩

/-- Settles O7: by the operation code, in the order of `decode_ok_cases`. -/
theorem encodeDecodeIsCanonical : Obligations.EncodeDecodeIsCanonical := by
  unfold Obligations.EncodeDecodeIsCanonical
  intro cmd i hdecode
  rcases decode_ok_cases hdecode with ⟨hop, rfl⟩ | ⟨hop, rfl⟩ | ⟨hop, rfl⟩ | ⟨hop, rfl⟩ | ⟨hop, rfl⟩ | ⟨hop, rfl⟩
  · simp [hop, Instr.wf, encode, Instr.op]
  · simp [hop, Instr.wf, encode, Instr.op]
  · simp [hop, Instr.wf, encode, Instr.op, RegId.ofCode_wf, RegId.code_ofCode]
  · simp [hop, Instr.wf, encode, Instr.op, RegId.ofCode_wf, RegId.code_ofCode]
  · simp [hop, Instr.wf, encode, Instr.op]
  · simp [hop, Instr.wf, encode, Instr.op]

/-- Settles O8: what a made word decodes to does not mention its ignored fields, and neither command on FLAGS can err. -/
theorem ignoredFieldsDoNotMatter : Obligations.IgnoredFieldsDoNotMatter := by
  unfold Obligations.IgnoredFieldsDoNotMatter
  refine ⟨fun rid rid' data data' => ?_, fun s rid data => ?_, fun r v => ?_⟩
  · simp only [decode_make_nop, decode_make_reset, decode_make_get, decode_make_getFlags, decode_make_setFlags,
      and_self]
  · exact ⟨⟨_, step_issue_eq s (decode_make_getFlags rid data), rfl⟩,
      ⟨_, step_issue_eq s (decode_make_setFlags rid data), rfl⟩⟩
  · simp only [encode, CmdWord.rid_make, CmdWord.data_make, and_self]

/-- Settles O9: codes and well-formed identifiers correspond by `RegId.ofCode`. -/
theorem identifierCodes : Obligations.IdentifierCodes := by
  unfold Obligations.IdentifierCodes
  refine ⟨rfl, fun r => ?_, rfl, rfl, fun r => RegId.ofCode_code, fun c => ⟨RegId.code_ofCode c, ?_⟩⟩
  · cases r <;> rfl
  · revert c
    decide

/-- Settles O10: a finite check over the 32 codes. -/
theorem ridDecodeRanges : Obligations.RidDecodeRanges := by
  unfold Obligations.RidDecodeRanges
  decide

/-- Settles O3: the ten words are evaluated. -/
theorem sampleWordsDecode : Obligations.SampleWordsDecode := by
  unfold Obligations.SampleWordsDecode
  decide

end Sys2Proof.Proofs
end

section
/-! PROOFS. The classes of command words and what each means for the step: the word at the port under a contract on the pending
words, which words decode, and which answer an error (R70 to R72). -/

namespace Sys2Proof

/-! ### Classes by fields -/

theorem classOf_eq_reserved_iff : ∀ (op : BitVec 3) (rid : BitVec 5),
    classOf op rid = .reserved ↔ op = 6#3 ∨ op = 7#3 := by
  decide

theorem classOf_eq_invalidRegister_iff : ∀ (op : BitVec 3) (rid : BitVec 5),
    classOf op rid = .invalidRegister ↔ (op = 2#3 ∨ op = 3#3) ∧ (RegId.ofCode rid).select = none := by
  decide

/-- The count over all pairs, as a sum of the counts for each operation code. -/
theorem count_classPairs (k : CommandClass) : classPairs.count k =
    ((List.range 8).map fun op =>
      ((List.range 32).map fun rid => classOf (BitVec.ofNat 3 op) (BitVec.ofNat 5 rid)).count k).sum :=
  List.count_flatMap

theorem CmdWord.commandClass_eq_reserved_iff (c : CmdWord) :
    c.commandClass = .reserved ↔ c.op = 6#3 ∨ c.op = 7#3 :=
  classOf_eq_reserved_iff c.op c.rid

/-- A word decodes unless it is reserved (R70). -/
theorem decode_ok_or_reserved (c : CmdWord) :
    ((∃ i, decode c = .ok i) ∧ c.commandClass ≠ .reserved) ∨
    (decode c = .error (.reservedOperation c.op) ∧ c.commandClass = .reserved) := by
  by_cases h : c.op = 6#3 ∨ c.op = 7#3
  · exact .inr ⟨decode_of_op_reserved h, c.commandClass_eq_reserved_iff.mpr h⟩
  · refine .inl ⟨?_, fun hclass => h (c.commandClass_eq_reserved_iff.mp hclass)⟩
    rcases decode_cases c with ⟨-, hd⟩ | ⟨-, hd⟩ | ⟨-, hd⟩ | ⟨-, hd⟩ | ⟨-, hd⟩ | ⟨-, hd⟩ | ⟨hop, -⟩
    iterate 6 exact ⟨_, hd⟩
    exact absurd hop h

theorem exists_decode_of_not_reserved {c : CmdWord} (h : c.commandClass ≠ .reserved) : ∃ i, decode c = .ok i := by
  rcases decode_ok_or_reserved c with ⟨hd, -⟩ | ⟨-, hclass⟩
  · exact hd
  · exact absurd hclass h

namespace Machine

/-! ### Classes and responses -/

theorem responseOf_eq_error_iff_commandClass {c : CmdWord} {i : Instr} (h : decode c = .ok i) (s : State) :
    responseOf i s = .error .invalidRegister ↔ c.commandClass = .invalidRegister :=
  (responseOf_eq_error_iff_of_decode h s).trans (classOf_eq_invalidRegister_iff c.op c.rid).symm

/-- A word that decodes is legal exactly when its command answers without error (R72). -/
theorem isError_eq_false_iff_legal {c : CmdWord} {i : Instr} (h : decode c = .ok i) (s : State) :
    (responseOf i s).isError = false ↔ c.commandClass = .legal := by
  have herror := responseOf_eq_error_iff_commandClass h s
  rw [← Bool.not_eq_true, Response.isError_iff, herror]
  rcases decode_ok_or_reserved c with ⟨-, hclass⟩ | ⟨hd, -⟩
  · cases hc : c.commandClass <;> simp_all
  · cases h.symm.trans hd

theorem step_issue_of_reserved {c : CmdWord} (s : State) (h : decode c = .error (.reservedOperation c.op)) :
    step (s.issue c) = .refused (.reservedOperation c.op) := by
  have hport : (s.issue c).portWord = c := rfl
  simp only [step, hport, h]

/-! ### The word at the port -/

theorem portWord_of_pending_cons {s : State} {c : CmdWord} {rest : List CmdWord} (h : s.pending = c :: rest) :
    s.portWord = c := by
  rw [State.portWord, h, List.headD_cons]

theorem portWord_of_pending_nil {s : State} (h : s.pending = []) : s.portWord = idleWord := by
  rw [State.portWord, h, List.headD_nil]

/-- The word at the port is pending or the idle word, which is legal. -/
theorem commandClass_portWord {P : CommandClass → Prop} {s : State} (hidle : P .legal)
    (h : ∀ c ∈ s.pending, P c.commandClass) : P s.portWord.commandClass := by
  cases hp : s.pending with
  | nil =>
    have hclass : idleWord.commandClass = .legal := by decide
    rwa [portWord_of_pending_nil hp, hclass]
  | cons c rest =>
    rw [portWord_of_pending_cons hp]
    exact h c (by simp [hp])

theorem State.mem_of_mem_advance {s : State} {c : CmdWord} (h : c ∈ s.advance.pending) : c ∈ s.pending :=
  List.mem_of_mem_tail h

theorem step_eq_of_decode {s : State} {i : Instr} (h : decode s.portWord = .ok i) :
    step s = .next (s.advance.answer (blockAfter i s.advance) (responseOf i s.advance)) :=
  (step_of_decode h).trans (exec_eq i s.advance)

/-- A step of an engine in contract answers, in contract still (R189). -/
theorem step_keeps_inContract {s : State} (h : s.inContract) : ∃ t, step s = .next t ∧ t.inContract := by
  obtain ⟨i, hd⟩ := exists_decode_of_not_reserved
    (commandClass_portWord (P := fun k => k ≠ .reserved) (by decide) h)
  exact ⟨_, step_eq_of_decode hd, fun c hc => h c (State.mem_of_mem_advance hc)⟩

/-- A step of a well-wired engine answers without error, well wired still, and marks nothing on the record (R166). -/
theorem step_keeps_wellWired {s : State} (h : s.wellWired) : ∃ t, step s = .next t ∧ t.wellWired ∧
    t.response.isError = false ∧ t.errorSeen = s.errorSeen := by
  have hport : s.portWord.commandClass = .legal := commandClass_portWord (P := fun k => k = .legal) rfl h
  obtain ⟨i, hd⟩ := exists_decode_of_not_reserved (c := s.portWord) (by simp [hport])
  have hresp : (responseOf i s.advance).isError = false := (isError_eq_false_iff_legal hd _).mpr hport
  refine ⟨_, step_eq_of_decode hd, fun c hc => h c (State.mem_of_mem_advance hc), hresp, ?_⟩
  simp [hresp]

end Machine

end Sys2Proof
end

section
/-! PROOFS. The statements about every step and every run: the error record (R166), the engine's contract (R189), the classes
of command words (R72). -/

namespace Sys2Proof.Proofs

open Sys2Proof.Machine Sys2Proof.Claims

/-- Settles O52: a step answers by `State.answer` alone, which joins the response's error to the record. -/
theorem stepKeepsRecordTrue : Obligations.StepKeepsRecordTrue := by
  unfold Obligations.StepKeepsRecordTrue
  intro s t _ hstep
  obtain ⟨i, -, rfl⟩ := step_cases hstep
  refine ⟨fun herror => ?_, fun hseen => ?_, fun hseen => ?_, rfl, rfl⟩
  · rw [State.answer_response] at herror
    simp [herror]
  · simp [hseen]
  · simpa using hseen

/-- Settles O57: the contract is kept by every step, and so by every run. -/
theorem contractRunNeverStops : Obligations.ContractRunNeverStops := by
  unfold Obligations.ContractRunNeverStops
  exact run_keeps fun s h => step_keeps_inContract h

/-- Settles O58: no error in the last response holds after the first step, and every later step keeps it. -/
theorem wellWiredRunHasNoError : Obligations.WellWiredRunHasNoError := by
  unfold Obligations.WellWiredRunHasNoError
  intro n s hwired
  cases n with
  | zero => exact ⟨s, rfl, hwired, fun hn => absurd hn (lt_irrefl 0), rfl⟩
  | succ n =>
    obtain ⟨t, hstep, ht⟩ := step_keeps_wellWired hwired
    obtain ⟨u, hrun, huwired, huresp, huseen⟩ := run_keeps
      (P := fun u => u.wellWired ∧ u.response.isError = false ∧ u.errorSeen = s.errorSeen)
      (fun u ⟨hu, _, hseen⟩ => by
        obtain ⟨w, hw, hwwired, hwresp, hwseen⟩ := step_keeps_wellWired hu
        exact ⟨w, hw, hwwired, hwresp, hwseen.trans hseen⟩) n t ht
    exact ⟨u, (run_succ n hstep).trans hrun, huwired, fun _ => huresp, huseen⟩

/-- Settles O12: a word decodes or is reserved, and a decoded one is legal exactly when it answers without error; the
counts are evaluated. -/
theorem commandClassesPartition : Obligations.CommandClassesPartition := by
  unfold Obligations.CommandClassesPartition
  simp only [count_classPairs]
  refine ⟨fun s cmd => ?_, by decide, by decide, by decide⟩
  rcases decode_ok_or_reserved cmd with ⟨⟨i, hd⟩, hclass⟩ | ⟨hd, hclass⟩
  · simp [step_issue_eq s hd, hclass, responseOf_eq_error_iff_commandClass hd, isError_eq_false_iff_legal hd]
  · simp [step_issue_of_reserved s hd, hclass]

end Sys2Proof.Proofs
end

section
/-! PROOFS. The port-level design beside the step: its identifier decode, its lane steering and its outputs, one fact per
function of Machine/Datapath.lean. -/

namespace Sys2Proof.Machine

/-! ### Lanes -/

/-- The byte steered to a lane: the low byte of `data`, but for the high lane of a 16-bit write (R94). -/
def steeredByte (data : Word) (be : BitVec 2) : Lane → Byte
  | .low => loByte data
  | .high => if be = 0b10#2 then loByte data else hiByte data

/-- The write merge, lane by lane: an enabled lane takes the steered byte, the other keeps its own (R94). -/
theorem lane_wrMerge (old data : Word) (be : BitVec 2) (l : Lane) :
    l.of (wrMerge old data be) = if be.getLsbD l.bit then steeredByte data be l else l.of old := by
  have all : ∀ be : BitVec 2, be = 0 ∨ be = 1 ∨ be = 2 ∨ be = 3 := by decide
  rcases all be with rfl | rfl | rfl | rfl
  · cases l <;> rfl
  · cases l
    · exact loByte_joinBytes _ _
    · exact hiByte_joinBytes _ _
  · cases l
    · exact loByte_joinBytes _ _
    · exact hiByte_joinBytes _ _
  · cases l <;> rfl

/-- Two blocks are equal when every lane of every word and the flag cells are. -/
theorem Block.ext_lanes {b c : Block} (hl : ∀ (i : Fin 13) (l : Lane), l.of (b.word i) = l.of (c.word i))
    (hf : b.flagCells = c.flagCells) : b = c :=
  Block.ext_words (fun i => word_ext_lanes (hl i)) (congrArg flagsOfCells hf)

/-! ### The clock edge -/

section
variable (cfg : Config) (b : Block) (rid : BitVec 5) (data : Word) (i : Fin 13) (l : Lane)

theorem lane_portClock (op : BitVec 3) :
    l.of ((portClock cfg b op rid data).word i) = portLaneNext cfg b op rid data i l := by
  have hword : (portClock cfg b op rid data).word i =
      joinBytes (portLaneNext cfg b op rid data i .high) (portLaneNext cfg b op rid data i .low) :=
    Vector.getElem_ofFn i.isLt
  rw [hword, Lane.of_joinBytes]
  cases l <;> rfl

/-- An operation that is neither RESET nor SET enables no lane (R91, R96). -/
theorem portLaneNext_of_disabled {op : BitVec 3} (hreset : op ≠ 1#3) (hset : op ≠ 2#3) :
    portLaneNext cfg b op rid data i l = l.of (b.word i) := by
  simp [portLaneNext, portLaneEnable, hreset, hset]

theorem portLaneNext_reset : portLaneNext cfg b 1#3 rid data i l = l.of cfg.resetReg[i] := by
  simp [portLaneNext, portLaneEnable, portLaneData]

theorem portLaneNext_set_of_invalid (h : (ridDecode rid).valid = false) :
    portLaneNext cfg b 2#3 rid data i l = l.of (b.word i) := by
  simp [portLaneNext, portLaneEnable, h]

/-- SET under a valid identifier: the selected word's enabled lanes take the steered bytes. -/
theorem portLaneNext_set_of_valid (h : (ridDecode rid).valid = true) :
    portLaneNext cfg b 2#3 rid data i l =
      if (ridDecode rid).idx.toNat = i.val ∧ (ridDecode rid).be.getLsbD l.bit = true
      then steeredByte data (ridDecode rid).be l else l.of (b.word i) := by
  cases l <;> simp [portLaneNext, portLaneEnable, portLaneData, steeredByte, h]

/-- An operation that writes neither words nor FLAGS leaves the stored state as it is. -/
theorem portClock_of_disabled {op : BitVec 3} (hreset : op ≠ 1#3) (hset : op ≠ 2#3) (hflags : op ≠ 5#3) :
    portClock cfg b op rid data = b := by
  refine Block.ext_lanes (fun i l => ?_) ?_
  · rw [lane_portClock, portLaneNext_of_disabled cfg b rid data i l hreset hset]
  · simp [portClock, portFlagsEnable, hreset, hflags]

theorem portClock_reset : portClock cfg b 1#3 rid data = Block.ofReset cfg := by
  refine Block.ext_lanes (fun i l => ?_) rfl
  rw [lane_portClock, portLaneNext_reset, Block.word_ofReset]

theorem portClock_setFlags : portClock cfg b 5#3 rid data = b.writeFlags data := by
  refine Block.ext_lanes (fun i l => ?_) rfl
  rw [lane_portClock, portLaneNext_of_disabled cfg b rid data i l (by decide) (by decide), Block.word_writeFlags]

theorem portClock_set_of_invalid (h : (ridDecode rid).valid = false) : portClock cfg b 2#3 rid data = b := by
  refine Block.ext_lanes (fun i l => ?_) rfl
  rw [lane_portClock, portLaneNext_set_of_invalid cfg b rid data i l h]

theorem portClock_set_of_valid {sel : Selection} (h : (ridDecode rid).valid = true)
    (hidx : sel.idx.val = (ridDecode rid).idx.toNat) (hbe : sel.be = (ridDecode rid).be) :
    portClock cfg b 2#3 rid data = b.write sel data := by
  refine Block.ext_lanes (fun i l => ?_) rfl
  rw [lane_portClock, portLaneNext_set_of_valid cfg b rid data i l h, ← hidx, ← hbe, Block.word_write]
  by_cases hi : sel.idx = i
  · subst hi
    simp [lane_wrMerge]
  · have hval : sel.idx.val ≠ i.val := fun heq => hi (Fin.ext heq)
    simp [hi, hval]

/-! ### The outputs -/

theorem portWordSelect_eq {idx : BitVec 4} (h : i.val = idx.toNat) : portWordSelect b idx = b.word i := by
  simp [portWordSelect, Block.word, ← h]

end

/-- A valid and an invalid identifier select something and nothing (R67, R71). -/
theorem ridDecode_cases (rid : BitVec 5) :
    ((ridDecode rid).valid = true ∧ ∃ sel, (RegId.ofCode rid).select = some sel ∧
      sel.idx.val = (ridDecode rid).idx.toNat ∧ sel.be = (ridDecode rid).be) ∨
    ((ridDecode rid).valid = false ∧ (RegId.ofCode rid).select = none) := by
  cases h : (ridDecode rid).valid with
  | true => exact .inl ⟨rfl, exists_select_ofCode_of_valid h⟩
  | false => exact .inr ⟨rfl, select_ofCode_of_invalid h⟩

/-! ### The two designs agree -/

section
variable {c : CmdWord} {i : Instr} (h : decode c = .ok i) (s : State)
include h

/-- In the order of `decode_ok_cases`; SET by whether its identifier is valid. -/
theorem portClock_of_decode : portClock s.config s.block c.op c.rid c.data = blockAfter i s := by
  rcases decode_ok_cases h with ⟨hop, rfl⟩ | ⟨hop, rfl⟩ | ⟨hop, rfl⟩ | ⟨hop, rfl⟩ | ⟨hop, rfl⟩ | ⟨hop, rfl⟩ <;> rw [hop]
  · exact portClock_of_disabled s.config s.block c.rid c.data (by decide) (by decide) (by decide)
  · exact portClock_reset s.config s.block c.rid c.data
  · rcases ridDecode_cases c.rid with ⟨hvalid, sel, hsel, hidx, hbe⟩ | ⟨hvalid, hsel⟩
    · rw [portClock_set_of_valid _ _ _ _ hvalid hidx hbe, blockAfter_set_of_some hsel]
    · rw [portClock_set_of_invalid _ _ _ _ hvalid, blockAfter_set_of_none hsel]
  · exact portClock_of_disabled s.config s.block c.rid c.data (by decide) (by decide) (by decide)
  · exact portClock_of_disabled s.config s.block c.rid c.data (by decide) (by decide) (by decide)
  · exact portClock_setFlags s.config s.block c.rid c.data

theorem portRspErr_of_decode : portRspErr c.op c.rid = some (responseOf i s).rspErr := by
  rcases decode_ok_cases h with ⟨hop, rfl⟩ | ⟨hop, rfl⟩ | ⟨hop, rfl⟩ | ⟨hop, rfl⟩ | ⟨hop, rfl⟩ | ⟨hop, rfl⟩ <;> rw [hop]
  · rfl
  · rfl
  · rcases ridDecode_cases c.rid with ⟨hvalid, sel, hsel, -⟩ | ⟨hvalid, hsel⟩
    · simp [portRspErr, hvalid, responseOf_set_of_some hsel, Response.rspErr]
    · simp [portRspErr, hvalid, responseOf_set_of_none hsel, Response.rspErr]
  · rcases ridDecode_cases c.rid with ⟨hvalid, sel, hsel, -⟩ | ⟨hvalid, hsel⟩
    · simp [portRspErr, hvalid, responseOf_get_of_some hsel, Response.rspErr]
    · simp [portRspErr, hvalid, responseOf_get_of_none hsel, Response.rspErr]
  · rfl
  · rfl

theorem portRspData_of_decode : portRspData s.block c.op c.rid = (responseOf i s).rspData := by
  rcases decode_ok_cases h with ⟨hop, rfl⟩ | ⟨hop, rfl⟩ | ⟨hop, rfl⟩ | ⟨hop, rfl⟩ | ⟨hop, rfl⟩ | ⟨hop, rfl⟩ <;> rw [hop]
  · rfl
  · rfl
  · rcases ridDecode_cases c.rid with ⟨-, sel, hsel, -⟩ | ⟨-, hsel⟩
    · rw [responseOf_set_of_some hsel]
      rfl
    · rw [responseOf_set_of_none hsel]
      rfl
  · rcases ridDecode_cases c.rid with ⟨hvalid, sel, hsel, hidx, hbe⟩ | ⟨hvalid, hsel⟩
    · simp [portRspData, hvalid, responseOf_get_of_some hsel, Response.rspData, portWordSelect_eq _ _ hidx, hbe]
    · simp [portRspData, hvalid, responseOf_get_of_none hsel, Response.rspData]
  · rfl
  · rfl

/-- One row of the response mux: the ports before the step and the step give the same response (R103). -/
theorem response_row {r : Response} (hr : responseOf i s = r) :
    portRspErr c.op c.rid = some r.rspErr ∧ portRspData s.block c.op c.rid = r.rspData ∧
      ∃ t, step (s.issue c) = .next t ∧ t.response = r :=
  ⟨hr ▸ portRspErr_of_decode h s, hr ▸ portRspData_of_decode h s, _, step_issue_eq s h, hr⟩

end

/-- A reserved operation leaves both outputs unspecified (R103). -/
theorem port_outputs_of_reserved {op : BitVec 3} (h : op = 6#3 ∨ op = 7#3) (b : Block) (rid : BitVec 5) :
    portRspErr op rid = none ∧ portRspData b op rid = none := by
  rcases h with rfl | rfl <;> exact ⟨rfl, rfl⟩

end Sys2Proof.Machine
end

section
/-! PROOFS. The statements that compare the port-level design with the step (R70, R101 to R103). -/

namespace Sys2Proof.Proofs

open Sys2Proof.Machine Sys2Proof.Claims

/-- Settles O55: block and outputs agree for every word that decodes. -/
theorem portDesignRefinesStep : Obligations.PortDesignRefinesStep := by
  unfold Obligations.PortDesignRefinesStep
  intro s cmd i hdecode
  exact ⟨_, exec_eq i s, portClock_of_decode hdecode s, portRspErr_of_decode hdecode s, portRspData_of_decode hdecode s⟩

/-- Settles O11: the decoder refuses the word, and its operation code enables no cell. -/
theorem reservedOperationsRefused : Obligations.ReservedOperationsRefused := by
  unfold Obligations.ReservedOperationsRefused
  intro s rid data op hop
  have hmade : (CmdWord.make op rid data).op = op := CmdWord.op_make op rid data
  have hstep := step_issue_of_reserved s (decode_of_op_reserved (hmade.symm ▸ hop))
  rw [hmade] at hstep
  refine ⟨hstep, ?_, port_outputs_of_reserved hop s.block rid⟩
  apply portClock_of_disabled <;> rcases hop with rfl | rfl <;> decide

/-- Settles O54: row by row, the response of the decoded command. -/
theorem responseMux : Obligations.ResponseMux := by
  unfold Obligations.ResponseMux
  intro s cmd
  refine ⟨?_, fun hop hvalid => ?_, ?_, fun hop hvalid => ?_, fun hop => ?_, fun hop => ?_⟩
  · rintro (hop | hop | hop)
    · exact response_row (decode_of_op_nop hop) s rfl
    · exact response_row (decode_of_op_reset hop) s rfl
    · exact response_row (decode_of_op_setFlags hop) s rfl
  · obtain ⟨sel, hsel, -⟩ := exists_select_ofCode_of_valid hvalid
    exact response_row (decode_of_op_set hop) s (responseOf_set_of_some hsel cmd.data s)
  · rintro (hop | hop) hvalid
    · exact response_row (decode_of_op_set hop) s (responseOf_set_of_none (select_ofCode_of_invalid hvalid) cmd.data s)
    · exact response_row (decode_of_op_get hop) s (responseOf_get_of_none (select_ofCode_of_invalid hvalid) s)
  · obtain ⟨sel, hsel, hidx, hbe⟩ := exists_select_ofCode_of_valid hvalid
    exact ⟨sel.idx, hidx, hbe ▸ response_row (decode_of_op_get hop) s (responseOf_get_of_some hsel s)⟩
  · exact response_row (decode_of_op_getFlags hop) s rfl
  · obtain ⟨herr, hdata⟩ := port_outputs_of_reserved hop s.block cmd.rid
    exact ⟨herr, hdata, step_issue_of_reserved s (decode_of_op_reserved hop)⟩

end Sys2Proof.Proofs
end

section
/-! PROOFS. The state after a command as one name, what the reads answer in it, and what SET leaves in a word. -/

namespace Sys2Proof.Machine

/-- The state a command leaves: the answer that `exec_eq` gives. -/
def stateAfter (i : Instr) (s : State) : State := s.answer (blockAfter i s) (responseOf i s)

theorem exec_eq_stateAfter (i : Instr) (s : State) : exec i s = .next (stateAfter i s) := exec_eq i s

theorem eq_stateAfter_of_exec {i : Instr} {s t : State} (h : exec i s = .next t) : t = stateAfter i s :=
  (Host.Outcome.next.inj ((exec_eq_stateAfter i s).symm.trans h)).symm

@[simp] theorem stateAfter_block (i : Instr) (s : State) : (stateAfter i s).block = blockAfter i s := rfl
@[simp] theorem stateAfter_response (i : Instr) (s : State) : (stateAfter i s).response = responseOf i s := rfl

/-! ### What reads answer -/

theorem responseOf_get_word (w : WordReg) (s : State) : responseOf (.get (.word w)) s = .data (s.block.word w.index) :=
  responseOf_get_of_some (sel := ⟨w.index, 0b11#2⟩) rfl s

theorem responseOf_get_byte (a : ByteReg) (s : State) :
    responseOf (.get (.byte a)) s = .data (zext16 (a.lane.of (s.block.word a.parent.index))) :=
  (responseOf_get_of_some rfl s).trans (congrArg Response.data (rdMux_lane _ _))

theorem responseOf_getFlags (s : State) : responseOf .getFlags s = .data s.block.flags :=
  congrArg Response.data s.block.readFlags_eq

/-! ### What commands leave in words and FLAGS -/

theorem word_blockAfter_set_of_some {r : RegId} {sel : Selection} (h : r.select = some sel) (v : Word) (s : State)
    (j : Fin 13) : (blockAfter (.set r v) s).word j =
      if sel.idx = j then wrMerge (s.block.word sel.idx) v sel.be else s.block.word j := by
  rw [blockAfter_set_of_some h, Block.word_write]

theorem lane_blockAfter_set_word (w : WordReg) (v : Word) (s : State) (j : Fin 13) (l : Lane) :
    l.of ((blockAfter (.set (.word w) v) s).word j) = if w.index = j then l.of v else l.of (s.block.word j) := by
  rw [word_blockAfter_set_of_some rfl, apply_ite l.of, wrMerge_both]

theorem lane_blockAfter_set_byte (a : ByteReg) (v : Word) (s : State) (j : Fin 13) (l : Lane) :
    l.of ((blockAfter (.set (.byte a) v) s).word j) =
      if a.parent.index = j ∧ a.lane = l then loByte v else l.of (s.block.word j) := by
  rw [word_blockAfter_set_of_some rfl, apply_ite l.of, lane_wrMerge_lane, ite_and]
  exact ite_congr rfl (fun h => by rw [h]) fun _ => rfl

/-- What a command leaves in a lane is what the ordering model says it writes there, else what stood there (R50). -/
theorem lane_blockAfter (i : Instr) (s : State) (j : Fin 13) (l : Lane) :
    l.of ((blockAfter i s).word j) = (laneWrite s.config j l i).getD (l.of (s.block.word j)) := by
  cases i with
  | set r v =>
    cases r with
    | word w => rw [lane_blockAfter_set_word, laneWrite, apply_ite (Option.getD · _)]; rfl
    | byte a => rw [lane_blockAfter_set_byte, laneWrite, apply_ite (Option.getD · _)]; rfl
    | sentinel => rfl
    | beyond c => rfl
  | nop | reset | get | getFlags | setFlags => rfl

/-- What a command leaves in FLAGS, likewise (R50, rule 3). -/
theorem flags_blockAfter (i : Instr) (s : State) :
    (blockAfter i s).flags = (flagsWrite s.config i).getD s.block.flags := by
  cases i with
  | reset => exact Block.flags_ofReset s.config
  | set r v => exact Claims.flags_blockAfter_set r v s
  | setFlags v => exact s.block.flags_writeFlags v
  | nop | get | getFlags => rfl

end Sys2Proof.Machine
end

section
/-! PROOFS. The ordering model and a run of issued commands (R50). -/

namespace Sys2Proof.Machine

/-- The oldest command of a history acts first: it sets what the later ones start from. -/
theorem latest_append_oldest {α : Type} (write : Instr → Option α) (initial : α) (i : Instr) (newer : List Instr) :
    latest write initial (newer ++ [i]) = latest write ((write i).getD initial) newer := by
  induction newer with
  | nil => rfl
  | cons j newer ih => simp only [List.cons_append, latest, ih]

theorem laneAfter_append_oldest (i : Instr) (s : State) (j : Fin 13) (l : Lane) (newer : List Instr) :
    laneAfter s.config s.block j l (newer ++ [i]) = laneAfter s.config (blockAfter i s) j l newer := by
  rw [laneAfter, latest_append_oldest, ← lane_blockAfter, laneAfter]

theorem flagsAfter_append_oldest (i : Instr) (s : State) (newer : List Instr) :
    flagsAfter s.config s.block (newer ++ [i]) = flagsAfter s.config (blockAfter i s) newer := by
  rw [flagsAfter, latest_append_oldest, ← flags_blockAfter, flagsAfter]

/-- A step applies the first of the issued commands; the rest stay pending. -/
theorem step_of_pending_encode {s : State} {i : Instr} {rest : List CmdWord} (hwf : i.wf = true)
    (h : s.pending = encode i :: rest) : step s = .next (stateAfter i s.advance) := by
  have hport : s.portWord = encode i := portWord_of_pending_cons h
  exact step_eq_of_decode (hport ▸ decode_encode hwf)

/-- The state `t` that the issued commands `cs` leave from `s`, lane by lane, as the ordering model has it. -/
structure FollowsOrderingModel (s : State) (cs : List Instr) (t : State) : Prop where
  pending : t.pending = []
  config : t.config = s.config
  lane : ∀ (j : Fin 13) (l : Lane), l.of (t.block.word j) = laneAfter s.config s.block j l cs.reverse
  flags : t.block.flags = flagsAfter s.config s.block cs.reverse

theorem run_followsOrderingModel (cs : List Instr) : ∀ s : State, (∀ i ∈ cs, i.wf = true) → s.pending = cs.map encode →
    ∃ t : State, Host.Core.run core cs.length s = .next t ∧ FollowsOrderingModel s cs t := by
  induction cs with
  | nil => exact fun s _ hpending => ⟨s, rfl, hpending, rfl, fun _ _ => rfl, rfl⟩
  | cons i cs ih =>
    intro s hwf hpending
    have hstep : step s = .next (stateAfter i s.advance) :=
      step_of_pending_encode (hwf i List.mem_cons_self) hpending
    have hrest : (stateAfter i s.advance).pending = cs.map encode := congrArg List.tail hpending
    obtain ⟨t, hrun, ht⟩ := ih _ (fun j hj => hwf j (List.mem_cons_of_mem i hj)) hrest
    refine ⟨t, (run_succ _ hstep).trans hrun, ht.pending, ht.config, fun j l => ?_, ?_⟩
    · rw [ht.lane, List.reverse_cons]
      exact (laneAfter_append_oldest i s.advance j l cs.reverse).symm
    · rw [ht.flags, List.reverse_cons]
      exact (flagsAfter_append_oldest i s.advance cs.reverse).symm

end Sys2Proof.Machine

namespace Sys2Proof.Proofs

open Sys2Proof.Machine Sys2Proof.Claims

/-- Settles O56: by induction over the commands, and the reads answer the lanes and FLAGS of the state reached. -/
theorem runFollowsOrderingModel : Obligations.RunFollowsOrderingModel := by
  unfold Obligations.RunFollowsOrderingModel
  intro s cs hwf hpending
  obtain ⟨t, hrun, ht⟩ := run_followsOrderingModel cs s hwf hpending
  refine ⟨t, hrun, ht.pending, ht.config, fun w => ?_, fun a => ?_, ?_⟩
  · rw [responds_iff, responseOf_get_word, ← ht.lane, ← ht.lane]
    exact congrArg Response.data (joinBytes_eta _).symm
  · rw [responds_iff, responseOf_get_byte, ht.lane]
  · rw [responds_iff, responseOf_getFlags, ht.flags]

end Sys2Proof.Proofs
end

section
/-! PROOFS. The read mux and the write merge: their mask forms, and what one leaves for the other to read. -/

namespace Sys2Proof.Machine

/-! ### Mask forms -/

theorem joinBytes_hiByte_loByte (u v : Word) :
    joinBytes (hiByte u) (loByte v) = (u &&& 0xFF00#16) ||| (v &&& 0x00FF#16) := by
  ext k hk
  simp only [joinBytes, hiByte, loByte, BitVec.getElem_or, BitVec.getElem_and]
  interval_cases k <;> simp

theorem joinBytes_loByte_loByte (u v : Word) :
    joinBytes (loByte u) (loByte v) = ((u &&& 0x00FF#16) <<< 8) ||| (v &&& 0x00FF#16) := by
  ext k hk
  simp only [joinBytes, loByte, BitVec.getElem_or, BitVec.getElem_and, BitVec.getElem_shiftLeft]
  interval_cases k <;> simp

theorem loByte_and_mask (v : Word) : loByte (v &&& 0x00FF#16) = loByte v := by
  rw [← zext16_loByte, loByte_zext16]

theorem zext16_le (b : Byte) : zext16 b ≤ 0x00FF#16 := by
  rw [BitVec.le_def, zext16, BitVec.toNat_setWidth_of_le (by decide)]
  exact Nat.le_of_lt_succ b.isLt

theorem zext16_hiByte_mask (v : Word) : zext16 (hiByte v) = (v >>> 8) &&& 0x00FF#16 := by
  rw [← zext16_hiByte, ← zext16_loByte, loByte_zext16]

theorem hiByte_zext16 (b : Byte) : hiByte (zext16 b) = 0x00#8 := by
  ext k hk
  simp only [zext16, hiByte, BitVec.getElem_extractLsb']
  interval_cases k <;> simp

/-! ### Reading and writing after a merge -/

theorem rdMux_wrMerge_lane (o d : Word) (l : Lane) : rdMux (wrMerge o d l.enable) l.enable = zext16 (loByte d) := by
  rw [rdMux_lane, lane_wrMerge_lane, if_pos rfl]

theorem rdMux_wrMerge_other (o d : Word) {k l : Lane} (h : k ≠ l) :
    rdMux (wrMerge o d k.enable) l.enable = rdMux o l.enable := by
  rw [rdMux_lane, rdMux_lane, lane_wrMerge_lane, if_neg h]

/-- A second merge under the same enables leaves nothing of the first. -/
theorem wrMerge_wrMerge (o d e : Word) (be : BitVec 2) : wrMerge (wrMerge o d be) e be = wrMerge o e be := by
  refine word_ext_lanes fun l => ?_
  simp only [lane_wrMerge]
  split_ifs <;> rfl

/-- Two merges that name different lanes leave a byte of each, in either order. -/
theorem wrMerge_low_then_high (o d e : Word) :
    wrMerge (wrMerge o d Lane.low.enable) e Lane.high.enable = joinBytes (loByte e) (loByte d) :=
  congrArg (joinBytes (loByte e)) (loByte_joinBytes _ _)

theorem wrMerge_high_then_low (o d e : Word) :
    wrMerge (wrMerge o e Lane.high.enable) d Lane.low.enable = joinBytes (loByte e) (loByte d) :=
  congrArg (joinBytes · (loByte d)) (hiByte_joinBytes _ _)

theorem stuck_stuck (v : Word) : stuck (stuck v) = stuck v :=
  (stuck_eq_self_iff _).mpr (getLsbD_stuck_last v)

end Sys2Proof.Machine
end

section
/-! PROOFS. The statements about the write merge (R94) and the laws L1 to L10. -/

namespace Sys2Proof.Proofs

open Sys2Proof.Machine Sys2Proof.Claims

/-- Settles O16: the joined bytes as masks; lane by lane the merge is the steering. -/
theorem writeMerge : Obligations.WriteMerge := by
  unfold Obligations.WriteMerge
  intro old data
  refine ⟨rfl, joinBytes_hiByte_loByte old data, ?_, rfl, fun be => word_ext_lanes fun l => ?_⟩
  · exact (joinBytes_loByte_loByte data old).trans (BitVec.or_comm _ _)
  · rw [lane_wrMerge, Lane.of_joinBytes]
    cases l <;> rfl

/-- Settles O18: each law by the lane it speaks of. -/
theorem datapathLaws : Obligations.DatapathLaws := by
  unfold Obligations.DatapathLaws
  intro o d e be hbe
  have readBack : rdMux (wrMerge o d be) be = if be = 0b11#2 then d else zext16 (loByte d) := by
    rcases hbe with rfl | rfl | rfl
    · rfl
    · exact rdMux_wrMerge_lane o d .low
    · exact rdMux_wrMerge_lane o d .high
  have lanes : o = joinBytes (loByte (rdMux o 0b10#2)) (loByte (rdMux o 0b01#2)) :=
    (joinBytes_eta o).symm.trans (congrArg₂ joinBytes (loByte_zext16 _).symm (loByte_zext16 _).symm)
  exact ⟨readBack, rdMux_wrMerge_other o d (k := .low) (l := .high) (by decide),
    rdMux_wrMerge_other o d (k := .high) (l := .low) (by decide), lanes, (joinBytes_eta o).symm,
    wrMerge_wrMerge o d e be, wrMerge_low_then_high o d e, wrMerge_high_then_low o d e, rfl, rfl,
    zext16_le _, zext16_le _, wrMerge_wrMerge o d d be,
    congrArg (joinBytes _) (loByte_and_mask d).symm, congrArg (joinBytes · _) (loByte_and_mask d).symm,
    stuck_stuck d, getLsbD_stuck_last d, fun k hk => getLsbD_stuck_of_lt d hk⟩

end Sys2Proof.Proofs
end

section
/-! PROOFS. One command after another: when two states answer a command alike, what a repeated command does, what a read answers
after a write, and the codes of the identifiers that SET and GET take. -/

namespace Sys2Proof.Machine

/-! ### States that a command takes alike -/

theorem blockAfter_congr {s u : State} (hb : s.block = u.block) (hc : s.config = u.config) (i : Instr) :
    blockAfter i s = blockAfter i u := by
  cases i <;> simp only [blockAfter, hb, hc]

theorem responseOf_congr {s u : State} (hb : s.block = u.block) (i : Instr) : responseOf i s = responseOf i u := by
  cases i <;> simp only [responseOf, hb]

/-- The last response has no part in a command (R9). -/
theorem stateAfter_congr {s u : State} (hb : s.block = u.block) (hc : s.config = u.config)
    (hp : s.pending = u.pending) (he : s.errorSeen = u.errorSeen) (i : Instr) : stateAfter i s = stateAfter i u := by
  simp only [stateAfter, State.answer, blockAfter_congr hb hc, responseOf_congr hb, hc, hp, he]

theorem exec_congr {s u : State} (hb : s.block = u.block) (hc : s.config = u.config)
    (hp : s.pending = u.pending) (he : s.errorSeen = u.errorSeen) (i : Instr) : exec i s = exec i u := by
  rw [exec_eq_stateAfter, exec_eq_stateAfter, stateAfter_congr hb hc hp he]

/-! ### The same command again -/

theorem Block.write_write (b : Block) (sel : Selection) (v w : Word) :
    (b.write sel v).write sel w = b.write sel w := by
  refine Block.ext_words (fun j => ?_) rfl
  simp only [Block.word_write, if_true, wrMerge_wrMerge]
  split_ifs <;> rfl

theorem blockAfter_blockAfter (i : Instr) (s : State) : blockAfter i (stateAfter i s) = blockAfter i s := by
  cases i with
  | set r v =>
    cases h : r.select with
    | none => simp only [blockAfter_set_of_none h, stateAfter_block]
    | some sel => simp only [blockAfter_set_of_some h, stateAfter_block, Block.write_write]
  | nop | reset | get | getFlags | setFlags => rfl

theorem responseOf_stateAfter_self (i : Instr) (s : State) : responseOf i (stateAfter i s) = responseOf i s := by
  cases i <;> rfl

/-- After an answer without error, the next answer leaves nothing of it. -/
theorem State.answer_answer {r : Response} (h : r.isError = false) (s : State) (b b' : Block) (r' : Response) :
    (s.answer b r).answer b' r' = s.answer b' r' := by
  simp only [State.answer, h, Bool.or_false]

/-- A command that answers no error, applied again, leaves the very state it left. -/
theorem stateAfter_stateAfter {i : Instr} {s : State} (h : (responseOf i s).isError = false) :
    stateAfter i (stateAfter i s) = stateAfter i s := by
  rw [stateAfter, blockAfter_blockAfter, responseOf_stateAfter_self]
  exact State.answer_answer h s _ _ _

/-- The latest SET_FLAGS alone counts. -/
theorem setFlags_setFlags (v w : Word) (s : State) :
    stateAfter (.setFlags w) (stateAfter (.setFlags v) s) = stateAfter (.setFlags w) s :=
  State.answer_answer rfl s _ _ _

/-! ### FLAGS -/

theorem Block.getLsbD_flags_last (b : Block) : b.flags.getLsbD 15 = true :=
  (stuck_eq_self_iff _).mp (stuck_flagsOfCells b.flagCells)

theorem flags_blockAfter_of_other {i : Instr} (hreset : i ≠ .reset) (hset : ∀ v, i ≠ .setFlags v) (s : State) :
    (blockAfter i s).flags = s.block.flags := by
  by_contra hne
  rcases reset_or_setFlags_of_flags_changed hne with hi | ⟨v, hi⟩
  · exact hreset hi
  · exact hset v hi

theorem Block.writeFlags_flags (b : Block) : b.writeFlags b.flags = b :=
  Block.ext_words (fun _ => rfl) ((b.flags_writeFlags _).trans (stuck_flagsOfCells b.flagCells))

/-- Bit 15 of what is written to FLAGS does not matter (R99). -/
theorem cellsOf_xor_stuckMask (v : Word) : cellsOf (v ^^^ 0x8000#16) = cellsOf v := by
  ext k hk
  simp only [cellsOf, BitVec.getElem_extractLsb', BitVec.getLsbD_xor]
  interval_cases k <;> simp

theorem Block.writeFlags_xor_stuckMask (b : Block) (v : Word) :
    b.writeFlags (v ^^^ 0x8000#16) = b.writeFlags v := by
  simp only [Block.writeFlags, cellsOf_stuck, cellsOf_xor_stuckMask]

theorem stateAfter_setFlags_xor_stuckMask (v : Word) (s : State) :
    stateAfter (.setFlags (v ^^^ 0x8000#16)) s = stateAfter (.setFlags v) s :=
  congrArg (s.answer · .ok) (s.block.writeFlags_xor_stuckMask v)

theorem Block.flags_and_stuckMask (b : Block) : b.flags &&& 0x8000#16 = 0x8000#16 := by
  ext k hk
  simp only [Block.flags, flagsOfCells, stuckMask, BitVec.getElem_and, BitVec.getElem_or]
  cases (0x8000#16)[k] <;> simp

/-! ### The reset values -/

theorem Flag.isSetIn_resetFlags (f : Flag) (cfg : Config) : f.isSetIn (resetFlags cfg) = false := by
  cases f <;> simp [Flag.isSetIn, Flag.offset, resetFlags, stuckMask, reservedMask]

theorem resetFlags_of_zero {cfg : Config} (h : cfg.flagsResetReserved = 0x0000#16) : resetFlags cfg = 0x8000#16 := by
  rw [resetFlags, h]
  rfl

theorem resetReg_canonical (i : Fin 13) : Config.canonical.resetReg[i] = 0x0000#16 :=
  Vector.getElem_replicate i.isLt

theorem flags_stateAfter_reset (s : State) : (stateAfter .reset s).block.flags = resetFlags s.config :=
  Block.flags_ofReset s.config

theorem responseOf_getFlags_after_reset (s : State) :
    responseOf .getFlags (stateAfter .reset s) = .data (resetFlags s.config) := by
  rw [responseOf_getFlags, flags_stateAfter_reset]

/-! ### Identifiers by code (R120, R121) -/

theorem select_ofCode_word : ∀ (code : BitVec 5) (i : Fin 13), code.toNat = i.val →
    (RegId.ofCode code).select = some ⟨i, 0b11#2⟩ := by
  decide

theorem select_ofCode_low : ∀ (code : BitVec 5) (i : Fin 13), i.val < 4 → code.toNat = 14 + i.val →
    (RegId.ofCode code).select = some ⟨i, Lane.low.enable⟩ := by
  decide

theorem select_ofCode_high : ∀ (code : BitVec 5) (i : Fin 13), i.val < 4 → code.toNat = 18 + i.val →
    (RegId.ofCode code).select = some ⟨i, Lane.high.enable⟩ := by
  decide

theorem select_ofCode_of_illegal : ∀ code : BitVec 5, code.toNat = 13 ∨ 22 ≤ code.toNat →
    (RegId.ofCode code).select = none := by
  decide

/-! ### A read after a write -/

theorem responseOf_get_after_set {r : RegId} {sel : Selection} (h : r.select = some sel) (v : Word) (s : State) :
    responseOf (.get r) (stateAfter (.set r v) s) =
      .data (rdMux (wrMerge (s.block.word sel.idx) v sel.be) sel.be) := by
  rw [responseOf_get_of_some h, stateAfter_block, word_blockAfter_set_of_some h, if_pos rfl]

theorem responseOf_get_word_after_set_word (r : WordReg) (v : Word) (s : State) :
    responseOf (.get (.word r)) (stateAfter (.set (.word r) v) s) = .data v :=
  responseOf_get_after_set (sel := ⟨r.index, 0b11#2⟩) rfl v s

/-- A 16-bit name reads both lanes after a write of one. -/
theorem responseOf_get_word_after_set_byte (a : ByteReg) (v : Word) (s : State) :
    responseOf (.get (.word a.parent)) (stateAfter (.set (.byte a) v) s) =
      .data (wrMerge (s.block.word a.parent.index) v a.lane.enable) := by
  rw [responseOf_get_word, stateAfter_block, word_blockAfter_set_of_some rfl, if_pos rfl]

/-- A byte name reads its lane after a write of both. -/
theorem responseOf_get_byte_after_set_word (a : ByteReg) (v : Word) (s : State) :
    responseOf (.get (.byte a)) (stateAfter (.set (.word a.parent) v) s) = .data (zext16 (a.lane.of v)) := by
  rw [responseOf_get_byte, stateAfter_block, lane_blockAfter_set_word, if_pos rfl]

theorem responseOf_get_byte_after_set_byte (a : ByteReg) (v : Word) (s : State) :
    responseOf (.get (.byte a)) (stateAfter (.set (.byte a) v) s) = .data (zext16 (loByte v)) := by
  rw [responseOf_get_byte, stateAfter_block, lane_blockAfter_set_byte, if_pos ⟨rfl, rfl⟩]

/-- A byte name does not read a write of another lane. -/
theorem responseOf_get_byte_after_set_other {a b : ByteReg} (h : a.lane ≠ b.lane) (v : Word) (s : State) :
    responseOf (.get (.byte b)) (stateAfter (.set (.byte a) v) s) = responseOf (.get (.byte b)) s := by
  rw [responseOf_get_byte, responseOf_get_byte, stateAfter_block, lane_blockAfter_set_byte,
    if_neg fun heq => h heq.2]

/-- The parent of two byte names of different lanes reads both writes. -/
theorem responseOf_get_word_after_set_bytes {lo hi : ByteReg} (hparent : hi.parent = lo.parent)
    (hlow : lo.lane = .low) (hhigh : hi.lane = .high) (v w : Word) (s : State) :
    responseOf (.get (.word lo.parent)) (stateAfter (.set (.byte hi) w) (stateAfter (.set (.byte lo) v) s)) =
      .data (joinBytes (loByte w) (loByte v)) ∧
    responseOf (.get (.word lo.parent)) (stateAfter (.set (.byte lo) v) (stateAfter (.set (.byte hi) w) s)) =
      .data (joinBytes (loByte w) (loByte v)) := by
  constructor
  · rw [← hparent, responseOf_get_word_after_set_byte, stateAfter_block, hparent, word_blockAfter_set_of_some rfl,
      if_pos rfl, hlow, hhigh, wrMerge_low_then_high]
  · rw [responseOf_get_word_after_set_byte, stateAfter_block, ← hparent, word_blockAfter_set_of_some rfl, if_pos rfl,
      hlow, hhigh, wrMerge_high_then_low]

end Sys2Proof.Machine

namespace Sys2Proof.Claims

open Sys2Proof.Machine

theorem sameSurroundings_stateAfter (i : Instr) (s : State) : SameSurroundings s (stateAfter i s) :=
  ⟨rfl, rfl, rfl⟩

theorem thenResponds_iff {s : State} {i j : Instr} {r : Response} :
    ThenResponds s i j r ↔ responseOf j (stateAfter i s) = r := by
  constructor
  · rintro ⟨t, hlead, hresp⟩
    exact eq_stateAfter_of_exec hlead ▸ responds_iff.mp hresp
  · exact fun h => ⟨_, exec_eq_stateAfter i s, responds_iff.mpr h⟩

/-- An identifier touches one word. -/
theorem touches_unique {r : RegId} {i j : Fin 13} (hi : touches r i) (hj : touches r j) : i = j := by
  obtain ⟨sel, hsel, rfl⟩ := hi
  obtain ⟨sel', hsel', rfl⟩ := hj
  rw [Option.some.inj (hsel.symm.trans hsel')]

/-- The low and the high byte name of each of the four registers (R12). -/
theorem aliased_cases : ∀ {x : WordReg} {xl xh : ByteReg}, (x, xl, xh) ∈ aliased →
    xl.parent = x ∧ xh.parent = x ∧ xl.lane = .low ∧ xh.lane = .high := by
  intro x xl xh h
  simp only [aliased, List.mem_cons, Prod.mk.injEq, List.not_mem_nil, or_false] at h
  rcases h with ⟨rfl, rfl, rfl⟩ | ⟨rfl, rfl, rfl⟩ | ⟨rfl, rfl, rfl⟩ | ⟨rfl, rfl, rfl⟩ <;> decide

/-- SET through a valid identifier: it answers `Ok`, merges into the one word, and a GET reads that back. -/
theorem set_of_select {r : RegId} {sel : Selection} (h : r.select = some sel) (v : Word) (s : State) :
    (stateAfter (.set r v) s).response = .ok ∧
    (stateAfter (.set r v) s).block.word sel.idx = wrMerge (s.block.word sel.idx) v sel.be ∧
    (∀ j, j ≠ sel.idx → (stateAfter (.set r v) s).block.word j = s.block.word j) ∧
    Responds (stateAfter (.set r v) s) (.get r)
      (.data (rdMux (wrMerge (s.block.word sel.idx) v sel.be) sel.be)) := by
  refine ⟨responseOf_set_of_some h v s, ?_, fun j hj => ?_, responds_iff.mpr (responseOf_get_after_set h v s)⟩
  · rw [stateAfter_block, word_blockAfter_set_of_some h, if_pos rfl]
  · rw [stateAfter_block, word_blockAfter_set_of_some h, if_neg hj.symm]

end Sys2Proof.Claims
end

section
/-! PROOFS. The statements about the commands, one by one (R110, R111, R120, R121, R140, R141). -/

namespace Sys2Proof.Proofs

open Sys2Proof.Machine Sys2Proof.Claims

/-- Settles O19: NOP leaves all that a later command looks at. -/
theorem nopCommand : Obligations.NopCommand := by
  unfold Obligations.NopCommand
  refine ⟨by decide, fun cmd hmask => ?_, fun s => ?_⟩
  · exact decode_of_op_nop (CmdWord.op_of_masked (hmask.trans (by decide)))
  · exact ⟨_, exec_eq_stateAfter .nop s, rfl, rfl, sameSurroundings_stateAfter .nop s,
      exec_congr rfl rfl rfl (Bool.or_false s.errorSeen)⟩

/-- Settles O20: RESET leaves `Block.ofReset` of the parameters, and answers no error. -/
theorem resetCommand : Obligations.ResetCommand := by
  unfold Obligations.ResetCommand
  refine ⟨by decide, fun cmd hmask => ?_, fun s => ?_, fun s s' t t' hconfig ht ht' => ?_⟩
  · exact decode_of_op_reset (CmdWord.op_of_masked (hmask.trans (by decide)))
  · have hflags := flags_stateAfter_reset s
    refine ⟨_, exec_eq_stateAfter .reset s, rfl, sameSurroundings_stateAfter .reset s, fun i => rfl, hflags,
      fun f => ?_, fun a => responds_iff.mpr rfl, fun hcanonical => ⟨fun i => ?_, ?_⟩, ?_⟩
    · rw [hflags, f.isSetIn_resetFlags]
    · have hword : (stateAfter .reset s).block.word i = s.config.resetReg[i] := rfl
      rw [hword, hcanonical, resetReg_canonical]
    · rw [hflags, hcanonical, resetFlags_of_zero rfl]
    · rw [exec_eq_stateAfter, stateAfter_stateAfter rfl]
  · rw [eq_stateAfter_of_exec ht, eq_stateAfter_of_exec ht']
    exact congrArg Block.ofReset hconfig

/-- Settles O21: each word is its parameter, which is zero by default. -/
theorem resetBankValues : Obligations.ResetBankValues := by
  unfold Obligations.ResetBankValues
  refine ⟨resetReg_canonical, fun s => ⟨_, exec_eq_stateAfter .reset s, fun i => rfl, fun hdefault => ?_⟩⟩
  have hword (i : Fin 13) : (stateAfter .reset s).block.word i = 0x0000#16 := by
    have hreg : (stateAfter .reset s).block.word i = s.config.resetReg[i] := rfl
    rw [hreg, hdefault, resetReg_canonical]
  refine ⟨fun w => ?_, fun a => ?_⟩
  · rw [responds_iff, responseOf_get_word, hword]
  · rw [responds_iff, responseOf_get_byte, hword]
    cases a.lane <;> decide

/-- Settles O22: FLAGS is `resetFlags` of the parameter, whose mask holds no named flag. -/
theorem resetFlagsValue : Obligations.ResetFlagsValue := by
  unfold Obligations.ResetFlagsValue
  refine ⟨rfl, fun s => ?_⟩
  have hflags := flags_stateAfter_reset s
  refine ⟨_, exec_eq_stateAfter .reset s, hflags, Block.getLsbD_flags_last _, fun f => ?_, fun hzero => ?_⟩
  · rw [hflags, f.isSetIn_resetFlags]
  · rw [hflags, resetFlags_of_zero hzero]

/-- Settles O24: the code says what the identifier selects, and SET merges there. -/
theorem setCommand : Obligations.SetCommand := by
  unfold Obligations.SetCommand
  intro s rid data
  refine ⟨RegId.ofCode rid, _, decode_make_set rid data, exec_eq_stateAfter _ s, sameSurroundings_stateAfter _ s,
    flags_blockAfter_set _ data s, fun i hcode => ?_, fun i hi hcode => ?_, fun i hi hcode => ?_, fun hcode => ?_⟩
  · exact set_of_select (select_ofCode_word rid i hcode) data s
  · obtain ⟨hresp, hword, hother, hget⟩ := set_of_select (select_ofCode_low rid i hi hcode) data s
    exact ⟨hresp, hword, hother, rdMux_wrMerge_lane (s.block.word i) data .low ▸ hget⟩
  · obtain ⟨hresp, hword, hother, hget⟩ := set_of_select (select_ofCode_high rid i hi hcode) data s
    exact ⟨hresp, hword, hother, rdMux_wrMerge_lane (s.block.word i) data .high ▸ hget⟩
  · have hnone := select_ofCode_of_illegal rid hcode
    exact ⟨responseOf_set_of_none hnone data s, blockAfter_set_of_none hnone data s⟩

/-- Settles O25: the code says what the identifier selects, and GET reads there. -/
theorem getCommand : Obligations.GetCommand := by
  unfold Obligations.GetCommand
  intro s rid data
  have hencode : encode (.get (RegId.ofCode rid)) = 0x600000#24 ||| (rid.setWidth 24 <<< 16) := by
    have hword : encode (.get (RegId.ofCode rid)) = CmdWord.make 3#3 rid 0#16 := by
      rw [encode, RegId.code_ofCode, Instr.op]
    rw [hword, CmdWord.make_eq_or (bits := 0x600000#24) (by decide)]
    simp
  refine ⟨RegId.ofCode rid, _, decode_make_get rid data, hencode, exec_eq_stateAfter _ s,
    sameSurroundings_stateAfter _ s, rfl, responds_iff.mpr (responseOf_stateAfter_self _ s), fun cells => ?_,
    fun i hcode => ?_, fun i hi hcode => ?_, fun i hi hcode => ?_, fun hcode => ?_⟩
  · exact responds_iff.mpr (responseOf_withFlagCells (by simp) s cells)
  · exact responseOf_get_of_some (select_ofCode_word rid i hcode) s
  · exact responseOf_get_of_some (select_ofCode_low rid i hi hcode) s
  · exact responseOf_get_of_some (select_ofCode_high rid i hi hcode) s
  · exact responseOf_get_of_none (select_ofCode_of_illegal rid hcode) s

/-- Settles O26: GET_FLAGS answers FLAGS, which only RESET and SET_FLAGS change. -/
theorem getFlagsCommand : Obligations.GetFlagsCommand := by
  unfold Obligations.GetFlagsCommand
  refine ⟨by decide, fun cmd hmask => ?_, fun s => ?_⟩
  · exact decode_of_op_getFlags (CmdWord.op_of_masked (hmask.trans (by decide)))
  · refine ⟨_, s.block.flags, exec_eq_stateAfter .getFlags s, rfl, sameSurroundings_stateAfter .getFlags s,
      responseOf_getFlags s, (stuck_flagsOfCells _).symm, rfl,
      (getLsbD_last_iff_le _).mp s.block.getLsbD_flags_last, responds_getFlags _, fun i hreset hset => ?_⟩
    rw [thenResponds_iff, responseOf_getFlags, stateAfter_block, flags_blockAfter_of_other hreset hset]
    rfl

/-- Settles O27: SET_FLAGS leaves `stuck` of its operand, and bit 15 of the operand is dropped. -/
theorem setFlagsCommand : Obligations.SetFlagsCommand := by
  unfold Obligations.SetFlagsCommand
  refine ⟨fun v => ?_, fun cmd hmask => ?_, fun s v => ?_⟩
  · have hword : CmdWord.make 5#3 0#5 v = 0xA00000#24 ||| ((0#5).setWidth 24 <<< 16) ||| v.setWidth 24 :=
      CmdWord.make_eq_or (by decide) 0#5 v
    exact hword.trans (by simp)
  · exact decode_of_op_setFlags (CmdWord.op_of_masked (hmask.trans (by decide)))
  · have hflags : (stateAfter (.setFlags v) s).block.flags = stuck v := s.block.flags_writeFlags v
    refine ⟨_, exec_eq_stateAfter _ s, rfl, sameSurroundings_stateAfter _ s, rfl, hflags, fun k hk => ?_,
      Block.getLsbD_flags_last _, ?_⟩
    · rw [hflags, getLsbD_stuck_of_lt v hk]
    · rw [exec_eq_stateAfter, stateAfter_setFlags_xor_stuckMask]

/-- Settles O40: each clause by the lane that is written and the lane that is read. -/
theorem mixedWidthAccess : Obligations.MixedWidthAccess := by
  unfold Obligations.MixedWidthAccess
  intro s v x xl xh hx
  obtain ⟨rfl, hparent, hlow, hhigh⟩ := aliased_cases hx
  simp only [thenResponds_iff, responds_iff]
  refine ⟨?_, ?_, ?_, ?_, fun resp hresp => ?_, fun resp hresp => ?_⟩
  · rw [responseOf_get_byte_after_set_word, hlow]
    rfl
  · rw [← hparent, responseOf_get_byte_after_set_word, hhigh]
    rfl
  · rw [responseOf_get_word_after_set_byte, hlow]
    rfl
  · rw [← hparent, responseOf_get_word_after_set_byte, hhigh]
    rfl
  · rw [responseOf_get_byte_after_set_other (by simp [hlow, hhigh]), hresp]
  · rw [responseOf_get_byte_after_set_other (by simp [hlow, hhigh]), hresp]

/-- Settles O28: P2 to P4 are the mixed-width accesses in mask form, P5 is by the words touched, P9 by both orders of
writing the two lanes. -/
theorem registerAccessLaws : Obligations.RegisterAccessLaws := by
  unfold Obligations.RegisterAccessLaws
  intro s v w
  refine ⟨fun r => ?_, fun x xl xh hx => ?_, fun x xl xh hx => ?_, fun x xl xh hx => ?_,
    fun r q i j hr hq hij resp hresp => ?_, fun r => ?_, fun c hc => ?_, fun r => ?_, fun x xl xh hx => ?_⟩
  · exact thenResponds_iff.mpr (responseOf_get_word_after_set_word r v s)
  · obtain ⟨hlow, hhigh, -⟩ := mixedWidthAccess s v x xl xh hx
    exact ⟨zext16_loByte v ▸ hlow, zext16_hiByte_mask v ▸ hhigh⟩
  · obtain ⟨-, -, hword, -, hother, -⟩ := mixedWidthAccess s w x xl xh hx
    exact ⟨joinBytes_hiByte_loByte _ w ▸ hword, hother⟩
  · obtain ⟨-, -, -, hword, -, hother⟩ := mixedWidthAccess s w x xl xh hx
    exact ⟨BitVec.or_comm _ _ ▸ joinBytes_loByte_loByte w _ ▸ hword, hother⟩
  · rw [thenResponds_iff, ← responds_iff.mp hresp]
    refine responseOf_get_congr fun k hk => (word_blockAfter_set_of_not_touches (fun hrk => hij ?_) v s).symm
    exact (touches_unique hr hrk).trans (touches_unique hk hq)
  · exact ⟨_, exec_eq_stateAfter _ s, flags_blockAfter_set r v s⟩
  · have hnone := select_ofCode_of_illegal c hc
    exact ⟨⟨_, exec_eq_stateAfter _ s, blockAfter_set_of_none hnone v s, responseOf_set_of_none hnone v s⟩,
      ⟨_, exec_eq_stateAfter _ s, rfl, responseOf_get_of_none hnone s⟩⟩
  · exact ⟨_, exec_eq_stateAfter _ s, rfl⟩
  · obtain ⟨rfl, hparent, hlow, hhigh⟩ := aliased_cases hx
    obtain ⟨hlh, hhl⟩ := responseOf_get_word_after_set_bytes hparent hlow hhigh v w s
    rw [joinBytes_loByte_loByte] at hlh hhl
    exact ⟨⟨_, exec_eq_stateAfter _ s, thenResponds_iff.mpr hlh⟩, ⟨_, exec_eq_stateAfter _ s, thenResponds_iff.mpr hhl⟩⟩

/-- Settles O29: GET_FLAGS answers FLAGS, SET_FLAGS leaves `stuck` of its operand whatever was there. -/
theorem flagsAccessLaws : Obligations.FlagsAccessLaws := by
  unfold Obligations.FlagsAccessLaws
  intro s v w
  have hget {f : Word} (hf : Responds s .getFlags (.data f)) : f = s.block.flags :=
    (Response.data.inj ((responseOf_getFlags s).symm.trans (responds_iff.mp hf))).symm
  refine ⟨⟨_, exec_eq _ s, responds_getFlags_after_setFlags s v⟩, ⟨_, responds_getFlags s⟩, fun f hf => ?_, ?_,
    ⟨_, exec_eq_stateAfter _ s, fun i => rfl⟩, ⟨_, exec_eq_stateAfter _ s, rfl⟩, fun f hf => ?_,
    thenResponds_iff.mpr (responseOf_getFlags_after_reset s), fun hzero => ?_⟩
  · rw [hget hf, Block.flags_and_stuckMask]
  · exact ⟨_, _, exec_eq_stateAfter _ s, exec_eq_stateAfter _ _, setFlags_setFlags v w s ▸ exec_eq_stateAfter _ s⟩
  · exact ⟨_, exec_eq_stateAfter _ s, hget hf ▸ s.block.writeFlags_flags⟩
  · rw [thenResponds_iff, responseOf_getFlags_after_reset, resetFlags_of_zero hzero]

/-- Settles O30: the reads answer the contents given, and RESET looks at none of them. -/
theorem createdContentsUntilReset : Obligations.CreatedContentsUntilReset := by
  unfold Obligations.CreatedContentsUntilReset
  intro cfg b b' v
  refine ⟨fun w => ?_, fun a => ?_, responds_getFlags _, responds_iff.mpr rfl, ?_, rfl⟩
  · exact responds_iff.mpr (responseOf_get_word w _)
  · exact responds_iff.mpr (responseOf_get_byte a _)
  · rw [thenResponds_iff, ← joinBytes_hiByte_loByte]
    exact responseOf_get_word_after_set_byte .al v _

end Sys2Proof.Proofs
end

section
/-! PROOFS. The engine's lines and conveniences (R74, R75). -/

namespace Sys2Proof.Machine

theorem asmValue_of_le {v : Nat} (h : v ≤ 0xFFFF) : asmValue v = some ((BitVec.ofNat 16 v).setWidth 24) := by
  have hword : BitVec.ofNat 24 v = (BitVec.ofNat 16 v).setWidth 24 := by
    apply BitVec.eq_of_toNat_eq
    simp only [BitVec.toNat_setWidth, BitVec.toNat_ofNat]
    omega
  rw [asmValue, if_pos h, hword]

theorem asmValue_of_gt {v : Nat} (h : 0xFFFF < v) : asmValue v = none :=
  if_neg (Nat.not_le.mpr h)

theorem assemble_set {r : AsmReg} {c : BitVec 5} {v : Nat} (hr : r.toCode = some c) (hv : v ≤ 0xFFFF) :
    assemble (.set r v) = some (CmdWord.make 2#3 c (BitVec.ofNat 16 v)) := by
  rw [CmdWord.make_eq_or (bits := 0x400000#24) (by decide)]
  simp only [assemble, hr, asmValue_of_le hv]

theorem assemble_get {r : AsmReg} {c : BitVec 5} (hr : r.toCode = some c) :
    assemble (.get r) = some (CmdWord.make 3#3 c 0#16) := by
  rw [CmdWord.make_eq_or (bits := 0x600000#24) (by decide)]
  simp [assemble, hr]

theorem assemble_setFlags {v : Nat} (hv : v ≤ 0xFFFF) :
    assemble (.setFlags v) = some (CmdWord.make 5#3 0#5 (BitVec.ofNat 16 v)) := by
  rw [CmdWord.make_eq_or (bits := 0xA00000#24) (by decide)]
  simp [assemble, asmValue_of_le hv]

theorem AsmReg.toCode_code_of_le {n : Nat} (h : n ≤ 31) :
    (AsmReg.code n).toCode = some (RegId.ofCode (BitVec.ofNat 5 n)).code :=
  (if_pos h).trans (congrArg some (RegId.code_ofCode _).symm)

theorem AsmReg.toCode_code_of_gt {n : Nat} (h : 31 < n) : (AsmReg.code n).toCode = none :=
  if_neg (Nat.not_le.mpr h)

theorem assemble_set_of_gt (r : AsmReg) {v : Nat} (h : 0xFFFF < v) : assemble (.set r v) = none := by
  cases hr : r.toCode <;> simp only [assemble, hr, asmValue_of_gt h]

/-- GET_FLAGS, then SET_FLAGS of the engine's word: what the two leave and answer. -/
theorem getFlags_thenWithData_setFlags (g : Word → Word) (s : State) :
    ∃ t, thenWithData (exec .getFlags s) (fun f => .setFlags (g f)) = .next t ∧
      t.block = s.block.writeFlags (g s.block.flags) ∧ t.response = .ok :=
  ⟨_, (thenWithData_data _ (responseOf_getFlags s)).trans (exec_eq_stateAfter _ _), rfl, rfl⟩

end Sys2Proof.Machine

namespace Sys2Proof.Proofs

open Sys2Proof.Machine Sys2Proof.Claims

/-- Settles O13: a line's word is the made word of its operation, its code and its numeral. -/
theorem assemblerWords : Obligations.AssemblerWords := by
  unfold Obligations.AssemblerWords
  refine ⟨fun w a n v hn hv => ?_, fun r v hv => ⟨assemble_set_of_gt r hv, ?_⟩, fun n v hn => ?_⟩
  · have hcode := AsmReg.toCode_code_of_le hn
    exact ⟨by decide, by decide, by decide, assemble_setFlags hv, assemble_set rfl hv, assemble_set rfl hv,
      assemble_set rfl hv, assemble_set hcode hv, assemble_get rfl, assemble_get rfl, assemble_get rfl,
      assemble_get hcode⟩
  · simp only [assemble, asmValue_of_gt hv]
  · have hcode := AsmReg.toCode_code_of_gt hn
    exact ⟨by simp only [assemble, hcode], by simp only [assemble, hcode]⟩

/-- Settles O14: the second command runs on the block the first left, which is the block before it. -/
theorem conveniencesExpand : Obligations.ConveniencesExpand := by
  unfold Obligations.ConveniencesExpand
  refine ⟨fun s mask => ⟨?_, ?_⟩, fun s rd rs v hget => ?_, fun s rd rs e hget => ?_⟩
  · exact getFlags_thenWithData_setFlags (· ||| mask) s
  · exact getFlags_thenWithData_setFlags (· &&& ~~~mask) s
  · have hblock : (s.answer s.block (.data v)).block = s.block := rfl
    exact ⟨_, _, (thenWithData_data _ (responds_iff.mp hget)).trans (exec_eq_stateAfter _ _),
      exec_eq_stateAfter _ s, blockAfter_congr hblock rfl (.set rd v), responseOf_congr hblock (.set rd v)⟩
  · exact ⟨_, thenWithData_error _ (responds_iff.mp hget), rfl, rfl⟩

end Sys2Proof.Proofs
end

section
/-! PROOFS. The statements about byte names (R12 to R14), the stuck bit (R25), repeated commands, frames, and the error
(R165, R166), and about commands back to back. -/

namespace Sys2Proof.Machine

theorem Lane.ne_other (l : Lane) : l ≠ l.other := by
  cases l <;> decide

end Sys2Proof.Machine

namespace Sys2Proof.Claims

open Sys2Proof.Machine

theorem flagCells_blockAfter_set (r : RegId) (v : Word) (s : State) :
    (blockAfter (.set r v) s).flagCells = s.block.flagCells := by
  cases h : r.select with
  | none => rw [blockAfter_set_of_none h]
  | some sel => rw [blockAfter_set_of_some h, Block.flagCells_write]

/-- A command that answers an error is SET or GET through an identifier that selects nothing (R162). -/
theorem set_or_get_of_isError {i : Instr} {s : State} (h : (responseOf i s).isError = true) :
    ∃ r, r.select = none ∧ (i = .get r ∨ ∃ v, i = .set r v) := by
  rw [Response.isError_iff] at h
  cases i with
  | set r v => exact ⟨r, (responseOf_set_eq_error_iff r v s).mp h, .inr ⟨v, rfl⟩⟩
  | get r => exact ⟨r, (responseOf_get_eq_error_iff r s).mp h, .inl rfl⟩
  | nop | reset | getFlags | setFlags => cases h

/-- A command after one that answered an error runs as if the failing one had not been there (R166, R167). -/
theorem leads_after_error {i : Instr} {s t : State} (hlead : Leads s i t) (h : t.response.isError = true) (j : Instr) :
    t.block = s.block ∧ ∃ u u', Leads t j u ∧ Leads s j u' ∧ u.block = u'.block ∧ u.response = u'.response := by
  obtain rfl := eq_stateAfter_of_exec hlead
  have hblock : (stateAfter i s).block = s.block := blockAfter_of_isError h
  exact ⟨hblock, _, _, exec_eq_stateAfter j _, exec_eq_stateAfter j s, blockAfter_congr hblock rfl j,
    responseOf_congr hblock j⟩

end Sys2Proof.Claims

namespace Sys2Proof.Proofs

open Sys2Proof.Machine Sys2Proof.Claims

/-- Settles O31: the table is evaluated; the read is the zero-extended lane; only byte names have narrower enables. -/
theorem aliasTable : Obligations.AliasTable := by
  unfold Obligations.AliasTable
  refine ⟨rfl, fun s a => ?_, fun r sel hsel => ?_⟩
  · rw [responds_iff, responseOf_get_byte]
    cases a.lane <;> rfl
  · rcases r.select_cases with ⟨w, -, hw⟩ | ⟨a, -, ha⟩ | ⟨-, hnone⟩
    · obtain rfl := Option.some.inj (hw.symm.trans hsel)
      exact .inl rfl
    · obtain rfl := Option.some.inj (ha.symm.trans hsel)
      right
      cases a <;> decide
    · cases hnone.symm.trans hsel

/-- Settles O32: lane by lane, what SET of a byte name leaves. -/
theorem aliasWriteInvariant : Obligations.AliasWriteInvariant := by
  unfold Obligations.AliasWriteInvariant
  intro s a v
  refine ⟨_, exec_eq_stateAfter _ s, rfl, ?_, ?_, fun j hj => ?_, flags_blockAfter_set _ v s⟩
  · rw [stateAfter_block, lane_blockAfter_set_byte, if_pos ⟨rfl, rfl⟩]
  · rw [stateAfter_block, lane_blockAfter_set_byte, if_neg fun h => a.lane.ne_other h.2]
  · rw [stateAfter_block, word_blockAfter_set_of_some rfl, if_neg hj.symm]

/-- Settles O33: the answer is the zero-extended lane. -/
theorem aliasReadInvariant : Obligations.AliasReadInvariant := by
  unfold Obligations.AliasReadInvariant
  intro s a
  exact ⟨_, _, exec_eq_stateAfter _ s, responseOf_get_byte a s, loByte_zext16 _, hiByte_zext16 _, zext16_le _⟩

/-- Settles O35: the flags value of any fifteen cells has bit 15, and GET_FLAGS answers it. -/
theorem stuckBitHardwired : Obligations.StuckBitHardwired := by
  unfold Obligations.StuckBitHardwired
  refine ⟨fun s => s.block.getLsbD_flags_last, fun s i => ?_⟩
  refine ⟨_, exec_eq_stateAfter i s, Block.getLsbD_flags_last _, fun f hf => ?_⟩
  rw [← Response.data.inj ((responseOf_getFlags _).symm.trans (responds_iff.mp hf)), Block.getLsbD_flags_last]

/-- Settles O41: a merge over its own result, a reset and a flags write give again what they gave. -/
theorem commandsAreIdempotent : Obligations.CommandsAreIdempotent := by
  unfold Obligations.CommandsAreIdempotent
  exact fun i s => ⟨_, _, exec_eq_stateAfter i s, exec_eq_stateAfter i _, blockAfter_blockAfter i s,
    responseOf_stateAfter_self i s⟩

/-- Settles O42: none of the three writes the block. -/
theorem frameNopGetGetFlags : Obligations.FrameNopGetGetFlags := by
  unfold Obligations.FrameNopGetGetFlags
  intro i s t hi hexec
  obtain rfl := eq_stateAfter_of_exec hexec
  refine ⟨?_, sameSurroundings_stateAfter i s⟩
  rcases hi with rfl | ⟨r, rfl⟩ | rfl <;> rfl

/-- Settles O43: SET writes only the word its identifier touches, and there only its lane. -/
theorem frameSet : Obligations.FrameSet := by
  unfold Obligations.FrameSet
  intro r v s t hexec
  obtain rfl := eq_stateAfter_of_exec hexec
  refine ⟨fun j hj => word_blockAfter_set_of_not_touches hj v s, fun a ha => ?_, ?_, sameSurroundings_stateAfter _ s⟩
  · subst ha
    rw [stateAfter_block, lane_blockAfter_set_byte, if_neg fun h => a.lane.ne_other h.2]
  · exact flagCells_blockAfter_set r v s

/-- Settles O44: SET_FLAGS writes the flag cells alone, and neither command answers an error. -/
theorem frameSetFlagsReset : Obligations.FrameSetFlagsReset := by
  unfold Obligations.FrameSetFlagsReset
  intro i s t hi hexec
  obtain rfl := eq_stateAfter_of_exec hexec
  rcases hi with rfl | ⟨v, rfl⟩
  · exact ⟨fun h => absurd rfl h, sameSurroundings_stateAfter _ s, Bool.or_false _⟩
  · exact ⟨fun _ => rfl, sameSurroundings_stateAfter _ s, Bool.or_false _⟩

/-- Settles O46: an error is answered for an identifier that selects nothing, and nothing is written. -/
theorem invalidRegisterLeavesTheState : Obligations.InvalidRegisterLeavesTheState := by
  unfold Obligations.InvalidRegisterLeavesTheState
  refine ⟨fun s r v hnone => ⟨?_, ?_⟩, fun i s t hexec herror => ?_⟩
  · exact ⟨_, exec_eq_stateAfter _ s, responseOf_set_of_none hnone v s, blockAfter_set_of_none hnone v s⟩
  · exact ⟨_, exec_eq_stateAfter _ s, responseOf_get_of_none hnone s, rfl⟩
  · obtain rfl := eq_stateAfter_of_exec hexec
    have hresp : (stateAfter i s).response = .error .invalidRegister := (Response.isError_iff _).mp herror
    exact ⟨blockAfter_of_isError herror, congrArg Response.rspData hresp, set_or_get_of_isError herror⟩

/-- Settles O47: block and response are functions of the block before and the parameters. -/
theorem errorIsPreciseAndNotLatched : Obligations.ErrorIsPreciseAndNotLatched := by
  unfold Obligations.ErrorIsPreciseAndNotLatched
  refine ⟨fun i s u hblock hconfig => ?_, fun i j s t hlead herror => leads_after_error hlead herror j,
    fun i s t hlead => ?_⟩
  · exact ⟨_, _, exec_eq_stateAfter i s, exec_eq_stateAfter i u, (blockAfter_congr hblock hconfig i).symm,
      (responseOf_congr hblock i).symm⟩
  · obtain rfl := eq_stateAfter_of_exec hlead
    rfl

/-- Settles O59: each row is a read after a write, or a command after an error. -/
theorem noHazards : Obligations.NoHazards := by
  unfold Obligations.NoHazards
  intro s v b c
  have hbytes := responseOf_get_word_after_set_bytes (lo := .al) (hi := .ah) rfl rfl rfl b c s
  simp only [thenResponds_iff]
  refine ⟨fun r => ?_, fun a => ?_, ?_, ?_, ?_, ⟨_, exec_eq_stateAfter _ s, hbytes.1⟩, ?_, fun i w hw => ?_,
    fun i a ha => ?_, ?_, fun i j t hlead herror => (leads_after_error hlead herror j).2⟩
  · exact responseOf_get_word_after_set_word r v s
  · exact responseOf_get_byte_after_set_byte a b s
  · exact responseOf_get_byte_after_set_word .al v s
  · exact responseOf_get_byte_after_set_word .ah v s
  · exact responseOf_get_word_after_set_byte .al b s
  · exact responds_iff.mp (responds_getFlags_after_setFlags s v)
  · subst hw
    exact responseOf_get_word w _
  · subst ha
    exact responseOf_get_byte a _
  · exact responseOf_getFlags_after_reset s

end Sys2Proof.Proofs
end

section
/-! PROOFS. The statements about the step's own plumbing, the reset state and the constants of the flags. -/

namespace Sys2Proof.Proofs

open Sys2Proof.Machine Sys2Proof.Claims

/-- Settles O1: the word at the port is the first pending one, or the idle word, which is NOP. -/
theorem stepRunsDecodedCommand : Obligations.StepRunsDecodedCommand := by
  unfold Obligations.StepRunsDecodedCommand
  refine ⟨fun s cmd rest i hpending hdecode => ?_, fun s hpending => ?_⟩
  · have hport : s.portWord = cmd := portWord_of_pending_cons hpending
    have hadvance : s.advance = { s with pending := rest } := by rw [State.advance, hpending, List.tail_cons]
    rw [step_of_decode (hport ▸ hdecode), hadvance]
  · have hport : s.portWord = idleWord := portWord_of_pending_nil hpending
    have hidle : decode idleWord = .ok .nop := by decide
    have hadvance : s.advance = s := by
      rw [State.advance, hpending, List.tail_nil, ← hpending]
    rw [step_of_decode (hport ▸ hidle), hadvance]

/-- Settles O2: the placed word decodes to what `decodeTableWord` reads. -/
theorem placedWordRunsNext : Obligations.PlacedWordRunsNext := by
  unfold Obligations.PlacedWordRunsNext
  intro s nbits w i htable
  refine step_issue s ?_
  unfold decodeTableWord at htable
  split at htable
  · next j hd => rwa [← Option.some.inj htable]
  · cases htable

/-- Settles O23: the state that RESET leaves is `State.reset` field by field. -/
theorem resetStateIsAfterReset : Obligations.ResetStateIsAfterReset := by
  unfold Obligations.ResetStateIsAfterReset
  refine ⟨resetReg_canonical, by decide, fun s hconfig hpending hseen => ?_⟩
  have hstate : State.reset = stateAfter .reset s := by
    simp [stateAfter, State.answer, blockAfter, responseOf, State.reset, Block.ofReset, hconfig, hpending, hseen]
  rw [exec_eq_stateAfter, hstate]

/-- Settles O38: the constants are evaluated; the reserved mask has no bit above 15. -/
theorem flagConstants : Obligations.FlagConstants := by
  unfold Obligations.FlagConstants
  have hreserved (k : Nat) : reservedMask.getLsbD k = true ↔ k ∈ [1, 3, 5, 12, 13, 14] := by
    rcases Nat.lt_or_ge k 16 with hlt | hge
    · revert k
      decide
    · rw [BitVec.getLsbD_of_ge _ k hge]
      have hsmall : ∀ k ∈ [1, 3, 5, 12, 13, 14], k < 16 := by decide
      exact iff_of_false Bool.false_ne_true fun hk => absurd (hsmall k hk) (Nat.not_lt.mpr hge)
  exact ⟨rfl, by decide, rfl, by decide, rfl, rfl, hreserved, by decide, rfl, by decide, rfl, by decide, by decide,
    by decide, by decide⟩

/-- Settles O53: no error is the last response at reset. -/
theorem resetRecordTrue : Obligations.ResetRecordTrue := by
  unfold Obligations.ResetRecordTrue
  exact fun herror => absurd herror (by decide)

end Sys2Proof.Proofs
end
